-- ==== Sys2Proof/Word.lean ====
section
/-! DEFINITION. The words of the block: the widths 00_scope.md rule R4 fixes. -/

namespace Sys2Proof

/-- The unit of every bus transfer and of every device register (20_memory.md R48, R49). -/
abbrev Byte := BitVec 8

/-- A raw conversion word (20_memory.md R41). -/
abbrev RawSample := BitVec 24

/-- A decoded sample, 32 bits two's complement (10_state.md R11). -/
abbrev Sample := BitVec 32

/-- The address of a device register, 0..3 (20_memory.md R40). -/
abbrev RegAddr := BitVec 2

/-- A gain code: the 3-bit exponent `g` of a gain of `2^g` (10_state.md R22). -/
abbrev GainCode := BitVec 3

/-- A multiplexer code (10_state.md R22). -/
abbrev MuxCode := BitVec 4

end Sys2Proof
end

