-- ==== Sys2Proof/Syntax.lean ====
section
/-! DEFINITION. The operations of spec/opcode_table.json, one constructor per row, with the operands
30_encoding.md rules R71 and R85 give them, and the byte form in which a request carries one. -/

namespace Sys2Proof

/-- A Configuration: the fifteen fields of 10_state.md R26, in its order, each exactly as wide as its
slot (40_codec.md R105). -/
structure Configuration where
  mux : MuxCode
  gain : GainCode
  pgaBypass : BitVec 1
  dr : BitVec 3
  opMode : BitVec 2
  convMode : BitVec 1
  tempSensor : BitVec 1
  burnout : BitVec 1
  vref : BitVec 2
  fir : BitVec 2
  psw : BitVec 1
  idac : BitVec 3
  i1mux : BitVec 3
  i2mux : BitVec 3
  drdyMode : BitVec 1
  deriving DecidableEq, Repr

/-- The default Configuration has every field 0 (44_lifecycle.md R202). -/
def Configuration.default : Configuration :=
  ⟨0, 0, 0, 0, 0, 0, 0, 0, 0, 0, 0, 0, 0, 0, 0⟩

/-- The two spaces of the opcode table, which never meet (30_encoding.md R85). -/
inductive Space where
  /-- Operations the host names to the block (30_encoding.md R85). -/
  | host
  /-- Command bytes the block transmits to the device (30_encoding.md R72). -/
  | wire
  deriving DecidableEq, Repr

/-- A request in its byte form. In the host space: the opcode byte and the operand bytes
(30_encoding.md R85). In the wire space: the bytes the block transmits in the frame, the command byte
first (30_encoding.md R71). -/
structure Request where
  space : Space
  bytes : List Byte
  deriving DecidableEq, Repr

/-- One constructor per row of spec/opcode_table.json. The override operand of `RDALL.*` is kept as
the request carries it, the mask `ovm` and the gain codes (30_encoding.md R86); what makes it
malformed is in `Instr.wf`. -/
inductive Instr where
  /-- `W.RESET` (30_encoding.md R72). -/
  | wReset
  /-- `W.START` (30_encoding.md R72). -/
  | wStart
  /-- `W.PWRDN` (30_encoding.md R72). -/
  | wPwrdn
  /-- `W.RREG` (30_encoding.md R72, R73). -/
  | wRreg (a : RegAddr)
  /-- `W.WREG4`, with the four bytes transmitted after the command (30_encoding.md R71, R72). -/
  | wWreg4 (v0 v1 v2 v3 : Byte)
  /-- `W.WREG1`, with the byte transmitted after the command (30_encoding.md R71, R72, R74). -/
  | wWreg1 (a : RegAddr) (v : Byte)
  /-- `INIT` (44_lifecycle.md R200). -/
  | init (c : Configuration)
  /-- `CONFIG` (44_lifecycle.md R201). -/
  | config (c : Configuration)
  /-- `RESET` (41_transport.md R122). -/
  | reset
  /-- `START` (41_transport.md R123). -/
  | start
  /-- `PWRDN` (41_transport.md R124). -/
  | pwrdn
  /-- `RREG` (41_transport.md R125). -/
  | rreg (a : RegAddr)
  /-- `WREG4` (41_transport.md R126). -/
  | wreg4 (v0 v1 v2 v3 : Byte)
  /-- `WREG1` (41_transport.md R127). -/
  | wreg1 (a : RegAddr) (v : Byte)
  /-- `RDATA` (41_transport.md R128). -/
  | rdata
  /-- `RDALL.D.SS` (43_sequencer.md R175). -/
  | rdallDSs (ovm : BitVec 2) (g0 g1 : GainCode)
  /-- `RDALL.D.CC` (43_sequencer.md R176). -/
  | rdallDCc (ovm : BitVec 2) (g0 g1 : GainCode)
  /-- `RDALL.S.SS` (43_sequencer.md R177). -/
  | rdallSSs (ovm : BitVec 4) (g0 g1 g2 g3 : GainCode)
  /-- `RDALL.S.CC` (43_sequencer.md R178). -/
  | rdallSCc (ovm : BitVec 4) (g0 g1 g2 g3 : GainCode)
  deriving DecidableEq, Repr

/-- The space an operation belongs to (30_encoding.md R85). -/
def Instr.space : Instr → Space
  | .wReset | .wStart | .wPwrdn | .wRreg _ | .wWreg4 _ _ _ _ | .wWreg1 _ _ => .wire
  | .init _ | .config _ | .reset | .start | .pwrdn | .rreg _ | .wreg4 _ _ _ _ | .wreg1 _ _ | .rdata => .host
  | .rdallDSs _ _ _ | .rdallDCc _ _ _ | .rdallSSs _ _ _ _ _ | .rdallSCc _ _ _ _ _ => .host

end Sys2Proof
end

