-- ==== Sys2Proof/WellFormed.lean ====
section
/-! DEFINITION. When an operation's operands are well formed (30_encoding.md rules R86, R89). The
widths are in the types; what is left to check is the override operand. -/

namespace Sys2Proof

/-- The gain code of a channel must be 0 when the channel's bit of `ovm` is clear
(30_encoding.md R86). -/
def gainAllowed (overridden : Bool) (g : GainCode) : Bool :=
  overridden || g == 0

/-- The override operand of the two-channel topology (30_encoding.md R86). -/
def overrideWf2 (ovm : BitVec 2) (g0 g1 : GainCode) : Bool :=
  gainAllowed (ovm.getLsbD 0) g0 && gainAllowed (ovm.getLsbD 1) g1

/-- The override operand of the four-channel topology (30_encoding.md R86). -/
def overrideWf4 (ovm : BitVec 4) (g0 g1 g2 g3 : GainCode) : Bool :=
  gainAllowed (ovm.getLsbD 0) g0 && gainAllowed (ovm.getLsbD 1) g1 &&
    gainAllowed (ovm.getLsbD 2) g2 && gainAllowed (ovm.getLsbD 3) g3

/-- Well-formedness of an operation: every operand is as wide as its type, and an override gain is
given only for a channel the mask names (30_encoding.md R89). -/
def Instr.wf : Instr → Bool
  | .wReset => true
  | .wStart => true
  | .wPwrdn => true
  | .wRreg _ => true
  | .wWreg4 _ _ _ _ => true
  | .wWreg1 _ _ => true
  | .init _ => true
  | .config _ => true
  | .reset => true
  | .start => true
  | .pwrdn => true
  | .rreg _ => true
  | .wreg4 _ _ _ _ => true
  | .wreg1 _ _ => true
  | .rdata => true
  | .rdallDSs ovm g0 g1 => overrideWf2 ovm g0 g1
  | .rdallDCc ovm g0 g1 => overrideWf2 ovm g0 g1
  | .rdallSSs ovm g0 g1 g2 g3 => overrideWf4 ovm g0 g1 g2 g3
  | .rdallSCc ovm g0 g1 g2 g3 => overrideWf4 ovm g0 g1 g2 g3

end Sys2Proof
end

