-- ==== Sys2Proof/Decode.lean ====
section
/-! DEFINITION. Decoding of requests in both spaces (30_encoding.md rules R70 to R76, R85, R86, R89),
the encoder written from the same tables, and the reading of a word numbered as
spec/opcode_table.json numbers it. -/

namespace Sys2Proof

/-- Why a request is not an operation (30_encoding.md R79, R89; 92_eei_decisions.md D2). -/
inductive DecodeError where
  /-- No byte at all. -/
  | emptyRequest
  /-- The first byte is no opcode of rule R85. -/
  | unknownOpcode (b : Byte)
  /-- The first byte is no command of rule R72. -/
  | unknownCommand (b : Byte)
  /-- Too few or too many bytes follow. -/
  | wrongLength
  /-- An operand byte has a set bit outside the operand's width; an `ovm` bit at or above `NCH(top)`
  is such a bit. -/
  | operandTooWide
  /-- A gain code is nonzero and its channel's bit of `ovm` is clear. -/
  | gainWithoutOverride
  deriving DecidableEq, Repr

/-- An operand byte fits an operand of `w` bits when no bit outside the width is set
(30_encoding.md R85). -/
def fits (w : Nat) (b : Byte) : Bool := decide (b.toNat < 2 ^ w)

/-! ## The host space -/

/-- The length of a host request, opcode byte included, by its opcode (30_encoding.md R85). -/
def hostLength (op : Byte) : Option Nat :=
  match op.toNat with
  | 0x01 => some 16
  | 0x02 => some 16
  | 0x03 => some 1
  | 0x04 => some 1
  | 0x05 => some 1
  | 0x06 => some 2
  | 0x07 => some 5
  | 0x08 => some 3
  | 0x09 => some 1
  | 0x10 => some 4
  | 0x11 => some 4
  | 0x12 => some 6
  | 0x13 => some 6
  | _ => none

/-- The fifteen operand bytes of `INIT` and `CONFIG` (30_encoding.md R85; order of 10_state.md R26). -/
def decodeConfiguration : List Byte → Except DecodeError Configuration
  | [mux, gain, byp, dr, op, cm, ts, bo, vref, fir, psw, idac, i1, i2, drdy] =>
    if fits 4 mux && fits 3 gain && fits 1 byp && fits 3 dr && fits 2 op && fits 1 cm && fits 1 ts &&
        fits 1 bo && fits 2 vref && fits 2 fir && fits 1 psw && fits 3 idac && fits 3 i1 && fits 3 i2 &&
        fits 1 drdy then
      .ok {
        mux := mux.setWidth 4, gain := gain.setWidth 3, pgaBypass := byp.setWidth 1,
        dr := dr.setWidth 3, opMode := op.setWidth 2, convMode := cm.setWidth 1,
        tempSensor := ts.setWidth 1, burnout := bo.setWidth 1, vref := vref.setWidth 2,
        fir := fir.setWidth 2, psw := psw.setWidth 1, idac := idac.setWidth 3,
        i1mux := i1.setWidth 3, i2mux := i2.setWidth 3, drdyMode := drdy.setWidth 1 }
    else .error .operandTooWide
  | _ => .error .wrongLength

/-- An operation whose override operand has been read, refused when it is malformed
(30_encoding.md R89). -/
def checked (i : Instr) : Except DecodeError Instr :=
  if i.wf then .ok i else .error .gainWithoutOverride

/-- The operand bytes of the two-channel `RDALL.*` (30_encoding.md R85, R86). -/
def decodeOverride2 (mk : BitVec 2 → GainCode → GainCode → Instr) :
    List Byte → Except DecodeError Instr
  | [ovm, g0, g1] =>
    if fits 2 ovm && fits 3 g0 && fits 3 g1 then
      checked (mk (ovm.setWidth 2) (g0.setWidth 3) (g1.setWidth 3))
    else .error .operandTooWide
  | _ => .error .wrongLength

/-- The operand bytes of the four-channel `RDALL.*` (30_encoding.md R85, R86). -/
def decodeOverride4 (mk : BitVec 4 → GainCode → GainCode → GainCode → GainCode → Instr) :
    List Byte → Except DecodeError Instr
  | [ovm, g0, g1, g2, g3] =>
    if fits 4 ovm && fits 3 g0 && fits 3 g1 && fits 3 g2 && fits 3 g3 then
      checked (mk (ovm.setWidth 4) (g0.setWidth 3) (g1.setWidth 3) (g2.setWidth 3) (g3.setWidth 3))
    else .error .operandTooWide
  | _ => .error .wrongLength

/-- An operation without operand bytes. -/
def decodeBare (i : Instr) : List Byte → Except DecodeError Instr
  | [] => .ok i
  | _ => .error .wrongLength

/-- `RREG`: one operand byte, `a : u2`. -/
def decodeRreg : List Byte → Except DecodeError Instr
  | [a] => if fits 2 a then .ok (.rreg (a.setWidth 2)) else .error .operandTooWide
  | _ => .error .wrongLength

/-- `WREG4`: four operand bytes. -/
def decodeWreg4 : List Byte → Except DecodeError Instr
  | [v0, v1, v2, v3] => .ok (.wreg4 v0 v1 v2 v3)
  | _ => .error .wrongLength

/-- `WREG1`: two operand bytes, `a : u2`, `v : u8`. -/
def decodeWreg1 : List Byte → Except DecodeError Instr
  | [a, v] => if fits 2 a then .ok (.wreg1 (a.setWidth 2) v) else .error .operandTooWide
  | _ => .error .wrongLength

/-- A host request: the opcode byte, then the operand bytes of its row (30_encoding.md R85). -/
def decodeHost : List Byte → Except DecodeError Instr
  | [] => .error .emptyRequest
  | op :: operands =>
    match op.toNat with
    | 0x01 => (decodeConfiguration operands).map .init
    | 0x02 => (decodeConfiguration operands).map .config
    | 0x03 => decodeBare .reset operands
    | 0x04 => decodeBare .start operands
    | 0x05 => decodeBare .pwrdn operands
    | 0x06 => decodeRreg operands
    | 0x07 => decodeWreg4 operands
    | 0x08 => decodeWreg1 operands
    | 0x09 => decodeBare .rdata operands
    | 0x10 => decodeOverride2 .rdallDSs operands
    | 0x11 => decodeOverride2 .rdallDCc operands
    | 0x12 => decodeOverride4 .rdallSSs operands
    | 0x13 => decodeOverride4 .rdallSCc operands
    | _ => .error (.unknownOpcode op)

/-! ## The wire space -/

/-- One row of 30_encoding.md R72: a byte `b` is the command when `b & mask == pattern`. -/
structure WireRow where
  mask : Byte
  pattern : Byte
  /-- How many bytes are transmitted, command byte included (30_encoding.md R71). -/
  transmitted : Nat
  deriving DecidableEq, Repr

/-- The rows of 30_encoding.md R72, in its order. -/
def wireRows : List WireRow :=
  [⟨0xFF, 0x06, 1⟩, ⟨0xFF, 0x08, 1⟩, ⟨0xFF, 0x02, 1⟩, ⟨0xF3, 0x20, 1⟩, ⟨0xFF, 0x43, 5⟩, ⟨0xF3, 0x40, 2⟩]

/-- Whether a byte is the command of a row (30_encoding.md R72). -/
def WireRow.selects (row : WireRow) (b : Byte) : Bool := (b &&& row.mask) == row.pattern

/-- The number of bytes the block transmits in a frame that starts with this command byte
(30_encoding.md R71, R81). -/
def wireLength (b : Byte) : Option Nat :=
  (wireRows.find? (fun row => row.selects b)).map (fun row => row.transmitted)

/-- The address field of a register command, bits 3:2 (30_encoding.md R70). -/
def commandAddress (b : Byte) : RegAddr := b.extractLsb' 2 2

/-- A wire request: the command byte and the bytes transmitted after it (30_encoding.md R71, R72). -/
def decodeWire : List Byte → Except DecodeError Instr
  | [] => .error .emptyRequest
  | cmd :: rest =>
    if cmd &&& 0xFF == 0x06 then decodeBare .wReset rest
    else if cmd &&& 0xFF == 0x08 then decodeBare .wStart rest
    else if cmd &&& 0xFF == 0x02 then decodeBare .wPwrdn rest
    else if cmd &&& 0xF3 == 0x20 then decodeBare (.wRreg (commandAddress cmd)) rest
    else if cmd &&& 0xFF == 0x43 then
      match rest with
      | [v0, v1, v2, v3] => .ok (.wWreg4 v0 v1 v2 v3)
      | _ => .error .wrongLength
    else if cmd &&& 0xF3 == 0x40 then
      match rest with
      | [v] => .ok (.wWreg1 (commandAddress cmd) v)
      | _ => .error .wrongLength
    else .error (.unknownCommand cmd)

/-- Decoding is total: every request is an operation or is refused by name (30_encoding.md R89). -/
def decode (r : Request) : Except DecodeError Instr :=
  match r.space with
  | .host => decodeHost r.bytes
  | .wire => decodeWire r.bytes

/-! ## The encoder -/

/-- `zext_8` of an operand: the operand byte of a request (30_encoding.md R85). -/
def operandByte {w : Nat} (v : BitVec w) : Byte := v.setWidth 8

/-- `0x20 | (zext_8(a) << 2)` (30_encoding.md R73). -/
def readCommand (a : RegAddr) : Byte := 0x20 ||| (operandByte a <<< 2)

/-- `0x40 | (zext_8(a) << 2)`, one register (30_encoding.md R74). -/
def writeCommand (a : RegAddr) : Byte := 0x40 ||| (operandByte a <<< 2)

/-- The fifteen operand bytes of a Configuration (30_encoding.md R85; order of 10_state.md R26). -/
def encodeConfiguration (c : Configuration) : List Byte :=
  [operandByte c.mux, operandByte c.gain, operandByte c.pgaBypass, operandByte c.dr,
    operandByte c.opMode, operandByte c.convMode, operandByte c.tempSensor, operandByte c.burnout,
    operandByte c.vref, operandByte c.fir, operandByte c.psw, operandByte c.idac,
    operandByte c.i1mux, operandByte c.i2mux, operandByte c.drdyMode]

/-- The bytes of an operation (30_encoding.md R71, R72, R85). -/
def encodeBytes : Instr → List Byte
  | .wReset => [0x06]
  | .wStart => [0x08]
  | .wPwrdn => [0x02]
  | .wRreg a => [readCommand a]
  | .wWreg4 v0 v1 v2 v3 => [0x43, v0, v1, v2, v3]
  | .wWreg1 a v => [writeCommand a, v]
  | .init c => 0x01 :: encodeConfiguration c
  | .config c => 0x02 :: encodeConfiguration c
  | .reset => [0x03]
  | .start => [0x04]
  | .pwrdn => [0x05]
  | .rreg a => [0x06, operandByte a]
  | .wreg4 v0 v1 v2 v3 => [0x07, v0, v1, v2, v3]
  | .wreg1 a v => [0x08, operandByte a, v]
  | .rdata => [0x09]
  | .rdallDSs ovm g0 g1 => [0x10, operandByte ovm, operandByte g0, operandByte g1]
  | .rdallDCc ovm g0 g1 => [0x11, operandByte ovm, operandByte g0, operandByte g1]
  | .rdallSSs ovm g0 g1 g2 g3 =>
    [0x12, operandByte ovm, operandByte g0, operandByte g1, operandByte g2, operandByte g3]
  | .rdallSCc ovm g0 g1 g2 g3 =>
    [0x13, operandByte ovm, operandByte g0, operandByte g1, operandByte g2, operandByte g3]

/-- The request of an operation. -/
def encode (i : Instr) : Request := ⟨i.space, encodeBytes i⟩

/-! ## A word numbered as spec/opcode_table.json numbers it -/

/-- Byte `n` of a word whose bit 0 is the least significant bit of the first byte. -/
def wordByte (w n : Nat) : Byte := BitVec.ofNat 8 (w >>> (8 * n))

/-- The first `len` bytes of a word. -/
def wordBytes (w len : Nat) : List Byte := (List.range len).map (wordByte w)

/-- The request a table word stands for. The word gives the first `nbits` bits and every bit above
them is 0. The table's two spaces share first bytes (`0x02`, `0x06`, `0x08`); a word of one byte is
read in the wire space where a wire row has it, and otherwise the host space is tried first
(DESIGN CHOICE, log 14: the host rows with those opcodes are longer than one byte). -/
def tableRequest (nbits w : Nat) : Request :=
  let given := (nbits + 7) / 8
  let w := w % 2 ^ nbits
  let first := wordByte w 0
  match if given ≤ 1 then wireLength first else none with
  | some len => ⟨.wire, wordBytes w len⟩
  | none =>
    match hostLength first with
    | some len => ⟨.host, wordBytes w (max len given)⟩
    | none =>
      match wireLength first with
      | some len => ⟨.wire, wordBytes w (max len given)⟩
      | none => ⟨.host, wordBytes w given⟩

/-- The operation the decoder reads from a word numbered as spec/opcode_table.json numbers it. -/
def decodeTableWord (nbits w : Nat) : Option Instr :=
  (decode (tableRequest nbits w)).toOption

end Sys2Proof
end

