-- ==== Sys2Proof/Machine/Codec.lean ====
section
/-! DEFINITION. The Register Codec (40_codec.md) and the Sample Decoder (42_sample_decoder.md): the
pure functions `ENC`, `ENC0`, `DEC0`, `DEC`, `SDEC`. -/

namespace Sys2Proof.Machine

/-- The four bytes of a bulk register write, for registers 0 to 3 in this order (20_memory.md R44). -/
structure RegBytes where
  b0 : Byte
  b1 : Byte
  b2 : Byte
  b3 : Byte
  deriving DecidableEq, Repr

/-- `ENC0(mux, gain, byp)` (40_codec.md R106; layout 10_state.md R22). -/
def enc0 (mux : MuxCode) (gain : GainCode) (byp : BitVec 1) : Byte :=
  (mux.setWidth 8 <<< 4) ||| (gain.setWidth 8 <<< 1) ||| byp.setWidth 8

/-- `ENC(c)` (40_codec.md R100; layouts 10_state.md R22 to R25). -/
def enc (c : Configuration) : RegBytes where
  b0 := (c.mux.setWidth 8 <<< 4) ||| (c.gain.setWidth 8 <<< 1) ||| c.pgaBypass.setWidth 8
  b1 := (c.dr.setWidth 8 <<< 5) ||| (c.opMode.setWidth 8 <<< 3) ||| (c.convMode.setWidth 8 <<< 2) |||
    (c.tempSensor.setWidth 8 <<< 1) ||| c.burnout.setWidth 8
  b2 := (c.vref.setWidth 8 <<< 6) ||| (c.fir.setWidth 8 <<< 4) ||| (c.psw.setWidth 8 <<< 3) |||
    c.idac.setWidth 8
  b3 := (c.i1mux.setWidth 8 <<< 5) ||| (c.i2mux.setWidth 8 <<< 2) ||| (c.drdyMode.setWidth 8 <<< 1)

/-- `DEC0(b)`: the multiplexer code, the gain code and the bypass bit of a register-0 value
(40_codec.md R102). -/
def dec0 (b : Byte) : MuxCode × GainCode × BitVec 1 :=
  (b.extractLsb' 4 4, b.extractLsb' 1 3, b.extractLsb' 0 1)

/-- `DEC(b)`: the full inverse; bit 0 of register 3 is ignored (40_codec.md R101). -/
def dec (b : RegBytes) : Configuration where
  mux := b.b0.extractLsb' 4 4
  gain := b.b0.extractLsb' 1 3
  pgaBypass := b.b0.extractLsb' 0 1
  dr := b.b1.extractLsb' 5 3
  opMode := b.b1.extractLsb' 3 2
  convMode := b.b1.extractLsb' 2 1
  tempSensor := b.b1.extractLsb' 1 1
  burnout := b.b1.extractLsb' 0 1
  vref := b.b2.extractLsb' 6 2
  fir := b.b2.extractLsb' 4 2
  psw := b.b2.extractLsb' 3 1
  idac := b.b2.extractLsb' 0 3
  i1mux := b.b3.extractLsb' 5 3
  i2mux := b.b3.extractLsb' 2 3
  drdyMode := b.b3.extractLsb' 1 1

/-- The raw sample of three bytes in order of arrival, the first most significant
(30_encoding.md R77). -/
def rawSample (b0 b1 b2 : Byte) : RawSample :=
  (b0.setWidth 24 <<< 16) ||| (b1.setWidth 24 <<< 8) ||| b2.setWidth 24

/-- The value of a raw sample: `raw - 0x1000000` when bit 23 is set, else `raw`
(42_sample_decoder.md R150). -/
def sampleValue (raw : RawSample) : Int :=
  if raw.getLsbD 23 then (raw.toNat : Int) - 0x1000000 else raw.toNat

/-- `SDEC(b0, b1, b2)` as the 32-bit pattern the sample register holds (42_sample_decoder.md R150). -/
def sdec (b0 b1 b2 : Byte) : Sample := BitVec.ofInt 32 (sampleValue (rawSample b0 b1 b2))

end Sys2Proof.Machine
end

