-- ==== Sys2Proof/Config.lean ====
section
/-! DEFINITION. The parameter record `P` of 00_scope.md rule R5, and the values nothing in the spec
fixes: what the environment answers where nothing is scripted, and the registers the spec leaves
unspecified at reset. -/

namespace Sys2Proof

/-- The parameter record `P` (00_scope.md R5): fixed when the block is instantiated, constant for
its whole life, written by no operation. `P.MUX_DIFF` is fixed by R5 and is not a field
(`Machine.muxDiff`). `P.AVSS_GAIN_MAP` is the identity on codes 0, 1, 2 by R5, so only its images of
codes 3 to 7 are fields (log 21). -/
structure Params where
  /-- `P.T_CS`, microseconds: the guard delay of a frame (41_transport.md R120). -/
  tCs : Nat
  /-- `P.T_RST`, microseconds: the hold before and after the reset command (41_transport.md R122). -/
  tRst : Nat
  /-- `P.WAKE` (43_sequencer.md R166). -/
  wake : Bool
  /-- `P.SKIP_UNCHANGED` (43_sequencer.md R168). -/
  skipUnchanged : Bool
  /-- `P.POLL_LIMIT`: `none` is the unbounded wait (41_transport.md R130). -/
  pollLimit : Option Nat
  /-- `P.CHECK_GAIN` (43_sequencer.md R163). -/
  checkGain : Bool
  /-- `P.CAP_XFER`: the combined transmit-receive capability is bound (20_memory.md R46). -/
  capXfer : Bool
  /-- `P.CAP_DRDY`: the data-ready poll capability is bound (20_memory.md R46). -/
  capDrdy : Bool
  /-- `P.AVSS_GAIN_MAP(3)` (43_sequencer.md R165). -/
  avssGain3 : GainCode
  /-- `P.AVSS_GAIN_MAP(4)`. -/
  avssGain4 : GainCode
  /-- `P.AVSS_GAIN_MAP(5)`. -/
  avssGain5 : GainCode
  /-- `P.AVSS_GAIN_MAP(6)`. -/
  avssGain6 : GainCode
  /-- `P.AVSS_GAIN_MAP(7)`. -/
  avssGain7 : GainCode
  /-- `P.MUX_SE[0]`: the multiplexer code of AIN0 against AVSS. -/
  muxSe0 : MuxCode
  /-- `P.MUX_SE[1]`. -/
  muxSe1 : MuxCode
  /-- `P.MUX_SE[2]`. -/
  muxSe2 : MuxCode
  /-- `P.MUX_SE[3]`. -/
  muxSe3 : MuxCode
  /-- `P.XFER_FILL`: the third byte sent in a pipelined burst (41_transport.md R129). -/
  xferFill : Byte
  deriving DecidableEq, Repr

/-- The constraints R5 and 92_eei_decisions.md D5 put on an instance: `P.T_RST >= 100`,
`P.POLL_LIMIT` is `none` or at least 1, the four codes of `P.MUX_SE` pairwise distinct. -/
def Params.wf (p : Params) : Bool :=
  decide (100 ≤ p.tRst) && p.pollLimit.all (fun limit => decide (1 ≤ limit)) &&
    decide ([p.muxSe0, p.muxSe1, p.muxSe2, p.muxSe3].Nodup)

namespace Config

/-- The instance `Machine.State.reset` carries: the parameters of the spec's own first program
(95_test_vectors.md P1), with `T_CS = 5` and `T_RST = 100` as in the remark under V17/V18 there, the
defaults R5 gives for `P.MUX_SE` and `P.XFER_FILL`, and the identity as the gain map. DESIGN CHOICE
(log 1): R5 leaves them OPEN; statements quantify over `params`. -/
def exampleParams : Params where
  tCs := 5
  tRst := 100
  wake := false
  skipUnchanged := false
  pollLimit := none
  checkGain := false
  capXfer := true
  capDrdy := true
  avssGain3 := 3
  avssGain4 := 4
  avssGain5 := 5
  avssGain6 := 6
  avssGain7 := 7
  muxSe0 := 0x8
  muxSe1 := 0x9
  muxSe2 := 0xA
  muxSe3 := 0xB
  xferFill := 0x00

/-- The `n`-th byte the environment answers where nothing scripts it: a FREE VALUE
(20_memory.md R47, 93_implementation_defined.md U11; log 3). -/
opaque freeByte : Nat → Byte

/-- The `n`-th poll answer where nothing scripts it: a FREE VALUE (20_memory.md R47; log 3). -/
opaque freePoll : Nat → Bool

/-- `SR` after reset, which 10_state.md R28 leaves unspecified (log 2). -/
opaque resetSr : Sample

/-- `CH[0]` after reset, unspecified (10_state.md R28; log 2). -/
opaque resetCh0 : Sample

/-- `CH[1]` after reset, unspecified (10_state.md R28; log 2). -/
opaque resetCh1 : Sample

/-- `CH[2]` after reset, unspecified (10_state.md R28; log 2). -/
opaque resetCh2 : Sample

/-- `CH[3]` after reset, unspecified (10_state.md R28; log 2). -/
opaque resetCh3 : Sample

/-- `RB` after reset, unspecified (10_state.md R28; log 2). -/
opaque resetRb : Byte

/-- `ORIG` after reset, unspecified (10_state.md R28; log 2). -/
opaque resetOrig : Byte

/-- `R0S` after reset, unspecified (10_state.md R28; log 2). -/
opaque resetR0s : Byte

/-- `PCNT` after reset, unspecified (10_state.md R28; log 2). -/
opaque resetPcnt : Nat

end Config

end Sys2Proof
end

