-- ==== Sys2Proof/Machine/State.lean ====
section
/-! DEFINITION. The state of one block instance (10_state.md rules R10 to R21), the event trace and
the environment it is in (20_memory.md rules R45, R47, R58), the state after reset (R28), and the two
kinds of stop. -/

namespace Sys2Proof.Machine

/-! ## The event trace -/

/-- One entry of the event trace `TR` (20_memory.md R45; 00_scope.md section 7). -/
inductive Event where
  /-- `S1` for `true`, `S0` for `false`. -/
  | select (active : Bool)
  /-- `D(n)`, `n` microseconds. -/
  | delay (n : Nat)
  /-- `T(v)`: `v` transmitted. -/
  | tx (v : Byte)
  /-- `R>v`: `v` received. -/
  | rx (v : Byte)
  /-- `X(v)>w`: `v` sent and `w` received in one combined transfer. -/
  | xfer (v w : Byte)
  /-- `P>1` for `true` (still converting), `P>0` for `false` (ready). -/
  | poll (converting : Bool)
  deriving DecidableEq, Repr

/-! ## The environment -/

/-- The four device registers of the reference environment (20_memory.md R58). -/
structure DeviceRegs where
  reg0 : Byte
  reg1 : Byte
  reg2 : Byte
  reg3 : Byte
  deriving DecidableEq, Repr

/-- Where the reference environment's frame parser stands (20_memory.md R58). -/
inductive FramePos where
  /-- No frame is open. -/
  | outside
  /-- The select line is asserted and no byte has moved. -/
  | start
  /-- After `0x20 | (a<<2)`: the next `Rx` returns register `a`. -/
  | readReg (a : RegAddr)
  /-- After `0x43`, with `a` registers written: the next `Tx` byte goes to register `a`. -/
  | writeAll (a : RegAddr)
  /-- After `0x40 | (a<<2)`: the next byte sent goes to register `a`. -/
  | writeReg (a : RegAddr)
  /-- Nothing more is expected of bytes sent. -/
  | done
  deriving DecidableEq, Repr

/-- The reference environment `ENVREF` (20_memory.md R58). `shift` is what is left of the conversion
word that the open frame has taken. -/
structure ReferenceDevice where
  regs : DeviceRegs
  words : List RawSample
  polls : List Bool
  pos : FramePos
  shift : List Byte
  deriving DecidableEq, Repr

/-- The environment (20_memory.md R47). Either the answers it will give, as data: the bytes of the
coming `Rx` and `Xfer` calls, the answers of the coming `Poll` calls, and the answer of every later
`Poll` where that is fixed; whatever is not scripted is a free value of Config. Or the reference
environment of R58 (log 3). -/
inductive Environment where
  | script (bytes : List Byte) (polls : List Bool) (laterPolls : Option Bool)
  | reference (device : ReferenceDevice)
  deriving DecidableEq, Repr

/-- The block's side of the bus: the trace, the environment, and the MODEL's own count of the free
values drawn so far (log 4). -/
structure Bus where
  /-- `TR`, oldest event first (20_memory.md R45). -/
  trace : List Event
  env : Environment
  /-- How many free values have been drawn: the argument of the next one. -/
  draws : Nat
  deriving DecidableEq, Repr

/-! ## The block -/

/-- The sequencer phase (10_state.md R20). -/
inductive Phase where
  | idle
  | entry
  | waking
  | configuring
  | converting
  | reading
  | restoring
  deriving DecidableEq, Repr

/-- The topology of a sequence (43_sequencer.md R160). -/
inductive Topology where
  /-- Differential-2. -/
  | diff
  /-- Single-ended-4. -/
  | se
  deriving DecidableEq, Repr

/-- The mode of a sequence (43_sequencer.md R160). -/
inductive Mode where
  /-- Single-shot. -/
  | ss
  /-- Continuous. -/
  | cc
  deriving DecidableEq, Repr

/-- The operands of the running sequence, latched when it is accepted (43_sequencer.md R160, R179;
20_memory.md R57). For `DIFF` the last two overrides are `none`. -/
structure Latch where
  top : Topology
  mode : Mode
  ovr0 : Option GainCode
  ovr1 : Option GainCode
  ovr2 : Option GainCode
  ovr3 : Option GainCode
  deriving DecidableEq, Repr

/-- The Channel Sample Set `CH[0..3]` (10_state.md R12). -/
structure Channels where
  ch0 : Sample
  ch1 : Sample
  ch2 : Sample
  ch3 : Sample
  deriving DecidableEq, Repr

/-- The two optional capabilities (20_memory.md R46). -/
inductive Capability where
  /-- `send_receive`, bound when `P.CAP_XFER`. -/
  | sendReceive
  /-- `is_converting`, bound when `P.CAP_DRDY`. -/
  | isConverting
  deriving DecidableEq, Repr

/-- How the machine stops with a fault. No error outcome of the spec stops the machine: those are
codes in `err` and the block goes on (60_exceptions.md R217). The two faults here name states that no
run reaches; both are SAFE (log 19). -/
inductive Fault where
  /-- A capability that is not bound is called. Raised by `waitReady` (`Poll`) and `readPipelined`
  (`Xfer`); the entry checks come before any use (20_memory.md R46), so no run raises it. SAFE. -/
  | unboundCapability (c : Capability)
  /-- A phase other than `IDLE` runs and no sequence's operands are latched. Raised by `transition`;
  a sequence latches its operands when it is accepted (43_sequencer.md R179), so no run raises it.
  SAFE. -/
  | noLatchedOperation
  deriving DecidableEq, Repr

/-- How the machine refuses an operation. -/
inductive Refusal where
  /-- An operation of the opcode table without a meaning: raised by an arm of `exec` only. SAFE.
  Every operation has a meaning, so none raises it. -/
  | notModelled (mnemonic : String)
  deriving DecidableEq, Repr

/-- The state of one block instance: the registers of 10_state.md R10, and beside them the instance's
parameters, its bus, the requests the host will present, and the position inside a running sequence. -/
structure State where
  /-- The parameter record `P`: written by no operation (00_scope.md R5; log 1). -/
  params : Params
  /-- `SR` (10_state.md R11). -/
  sr : Sample
  /-- `CH[0..3]` (10_state.md R12). -/
  ch : Channels
  /-- `NVALID`, 0..4 (10_state.md R13). -/
  nvalid : Fin 5
  /-- `RB` (10_state.md R14). -/
  rb : Byte
  /-- `INITED` (10_state.md R15). -/
  inited : Bool
  /-- `ERR`, the outcome code of the last operation (10_state.md R19). -/
  err : BitVec 3
  /-- `WARN` (10_state.md R19). -/
  warn : Bool
  /-- `ORIG` (10_state.md R16). -/
  orig : Byte
  /-- `R0S` (10_state.md R17). -/
  r0s : Byte
  /-- `PCNT` (10_state.md R18). -/
  pcnt : Nat
  /-- `PHASE` (10_state.md R20). -/
  phase : Phase
  /-- `K` (10_state.md R20). -/
  k : Fin 4
  /-- The operands of the running sequence; none when no sequence runs (43_sequencer.md R179; log 10). -/
  latch : Option Latch
  /-- The MODEL's own field: a `WaitReady` of the current phase has polled and was answered
  "converting" (41_transport.md R130; log 10). -/
  waiting : Bool
  /-- The trace and the environment (20_memory.md R45, R47). -/
  bus : Bus
  /-- The requests the host will present, oldest first, each taken when the block is idle
  (20_memory.md R55; log 6, log 17). -/
  pending : List Request
  deriving DecidableEq, Repr

/-- The block right after its reset, for any instance and any environment (10_state.md R28;
70_reset_and_hazards.md R240). The registers R28 leaves unspecified hold the uninterpreted constants
of Config (log 2). -/
def State.resetWith (p : Params) (e : Environment) : State where
  params := p
  sr := Config.resetSr
  ch := ⟨Config.resetCh0, Config.resetCh1, Config.resetCh2, Config.resetCh3⟩
  nvalid := 0
  rb := Config.resetRb
  inited := false
  err := 0
  warn := false
  orig := Config.resetOrig
  r0s := Config.resetR0s
  pcnt := Config.resetPcnt
  phase := .idle
  k := 0
  latch := none
  waiting := false
  bus := { trace := [], env := e, draws := 0 }
  pending := []

/-- The block right after its reset, as the example instance (log 1), in an environment of which
nothing is scripted (log 5), with no request presented (log 6). -/
def State.reset : State := State.resetWith Config.exampleParams (.script [] [] none)

end Sys2Proof.Machine
end

