-- ==== Sys2Proof/Machine/Operands.lean ====
section
/-! DEFINITION. The operand forms: the gain-override operand (30_encoding.md R86), the parameters that
are functions (00_scope.md R5), and the register-0 value of a channel, `CHANVAL`
(43_sequencer.md R165). -/

namespace Sys2Proof.Machine

/-- `NCH(top)` (00_scope.md R4). -/
def Topology.channels : Topology → Nat
  | .diff => 2
  | .se => 4

/-- The override of one channel: `some g` when its bit of `ovm` is set, else `none`
(30_encoding.md R86). -/
def overrideOf (overridden : Bool) (g : GainCode) : Option GainCode :=
  if overridden then some g else none

/-- The operands of a two-channel sequence (43_sequencer.md R160). -/
def latchDiff (mode : Mode) (ovm : BitVec 2) (g0 g1 : GainCode) : Latch where
  top := .diff
  mode := mode
  ovr0 := overrideOf (ovm.getLsbD 0) g0
  ovr1 := overrideOf (ovm.getLsbD 1) g1
  ovr2 := none
  ovr3 := none

/-- The operands of a four-channel sequence (43_sequencer.md R160). -/
def latchSe (mode : Mode) (ovm : BitVec 4) (g0 g1 g2 g3 : GainCode) : Latch where
  top := .se
  mode := mode
  ovr0 := overrideOf (ovm.getLsbD 0) g0
  ovr1 := overrideOf (ovm.getLsbD 1) g1
  ovr2 := overrideOf (ovm.getLsbD 2) g2
  ovr3 := overrideOf (ovm.getLsbD 3) g3

/-- `ovr[k]`. -/
def Latch.ovr (op : Latch) (k : Fin 4) : Option GainCode :=
  match k.val with
  | 0 => op.ovr0
  | 1 => op.ovr1
  | 2 => op.ovr2
  | _ => op.ovr3

/-- `P.MUX_DIFF = [0x0, 0x5]` (00_scope.md R5). A differential sequence has channels 0 and 1 only. -/
def muxDiff (k : Fin 4) : MuxCode :=
  match k.val with
  | 0 => 0x0
  | _ => 0x5

/-- `P.MUX_SE[k]` (00_scope.md R5). -/
def muxSe (p : Params) (k : Fin 4) : MuxCode :=
  match k.val with
  | 0 => p.muxSe0
  | 1 => p.muxSe1
  | 2 => p.muxSe2
  | _ => p.muxSe3

/-- `P.AVSS_GAIN_MAP(g)`: the identity on codes 0, 1, 2, the instance's own on codes 3 to 7
(00_scope.md R5). -/
def avssGainMap (p : Params) (g : GainCode) : GainCode :=
  match g.toNat with
  | 3 => p.avssGain3
  | 4 => p.avssGain4
  | 5 => p.avssGain5
  | 6 => p.avssGain6
  | 7 => p.avssGain7
  | _ => g

/-- `CHANVAL(top, k, o, orig)` (43_sequencer.md R165). -/
def chanVal (p : Params) (top : Topology) (k : Fin 4) (o : Option GainCode) (orig : Byte) : Byte :=
  let (_, resident, bypass) := dec0 orig
  let g := o.getD resident
  match top with
  | .diff => enc0 (muxDiff k) g bypass
  | .se => enc0 (muxSe p k) (avssGainMap p g) 1

/-- The register-0 value of channel `k` of the running sequence (43_sequencer.md R168). -/
def State.channelValue (s : State) (op : Latch) (k : Fin 4) : Byte :=
  chanVal s.params op.top k (op.ovr k) s.orig

end Sys2Proof.Machine
end

