-- ==== Sys2Proof/Machine/Ops.lean ====
section
/-! DEFINITION. The shared operations: the reference environment, the six capabilities of the bus
(20_memory.md R46), the select frame (41_transport.md R120), the channel registers, and the two ways an
operation ends: completing, and raising an error (60_exceptions.md R217). -/

namespace Sys2Proof.Machine

/-! ## The reference environment (20_memory.md R58) -/

/-- Device register `a`. -/
def DeviceRegs.read (r : DeviceRegs) (a : RegAddr) : Byte :=
  match a.toNat with
  | 0 => r.reg0
  | 1 => r.reg1
  | 2 => r.reg2
  | _ => r.reg3

/-- Device register `a` written. -/
def DeviceRegs.write (r : DeviceRegs) (a : RegAddr) (v : Byte) : DeviceRegs :=
  match a.toNat with
  | 0 => { r with reg0 := v }
  | 1 => { r with reg1 := v }
  | 2 => { r with reg2 := v }
  | _ => { r with reg3 := v }

/-- `S1` opens a frame and `S0` closes it; what is left of a word is dropped with the frame (log 13). -/
def ReferenceDevice.select (d : ReferenceDevice) (active : Bool) : ReferenceDevice :=
  { d with pos := if active then .start else .outside, shift := [] }

/-- What the first byte sent in a frame does: it is a command. A byte that is no command the rule
names does nothing (log 13). -/
def ReferenceDevice.command (d : ReferenceDevice) (v : Byte) : ReferenceDevice :=
  if v &&& 0xF3 == 0x20 then { d with pos := .readReg (v.extractLsb' 2 2) }
  else if v == 0x43 then { d with pos := .writeAll 0 }
  else if v &&& 0xF3 == 0x40 then { d with pos := .writeReg (v.extractLsb' 2 2) }
  else if v == 0x06 then { d with regs := ⟨0x00, 0x00, 0x00, 0x00⟩, pos := .done }
  else { d with pos := .done }

/-- A byte sent to the device, by `Tx` or as the outgoing half of an `Xfer` (for `0x43` see log 13). -/
def ReferenceDevice.send (d : ReferenceDevice) (v : Byte) : ReferenceDevice :=
  match d.pos with
  | .start => d.command v
  | .writeAll a => { d with regs := d.regs.write a v, pos := if a == 3 then .done else .writeAll (a + 1) }
  | .writeReg a => { d with regs := d.regs.write a v, pos := .done }
  | .outside => d
  | .readReg _ => d
  | .done => d

/-- The bytes of a conversion word, most significant first (20_memory.md R43). -/
def sampleBytes (w : RawSample) : List Byte :=
  [w.extractLsb' 16 8, w.extractLsb' 8 8, w.extractLsb' 0 8]

/-- A frame that starts with a data byte takes the head of `words`. -/
def ReferenceDevice.takeWord (d : ReferenceDevice) : ReferenceDevice :=
  match d.words with
  | [] => d
  | w :: ws => { d with words := ws, shift := sampleBytes w }

/-- The next byte of the word the frame has taken; none where R58 says nothing (log 13). -/
def ReferenceDevice.shiftByte (d : ReferenceDevice) : Option Byte × ReferenceDevice :=
  match d.shift with
  | [] => (none, d)
  | b :: bs => (some b, { d with shift := bs })

/-- What the device returns for an `Rx`: the register read, or the next byte of the conversion word.
Two rules of R58 overlap in frames the block never makes, and the model chooses (DESIGN CHOICE, log 13):
after an opening `Rx` no byte sent is a command any more, and after a read command sent by an opening
`Xfer` the next `Rx` returns the register and not the next byte of the word. -/
def ReferenceDevice.receive (d : ReferenceDevice) : Option Byte × ReferenceDevice :=
  match d.pos with
  | .readReg a => (some (d.regs.read a), { d with pos := .done })
  | .start => { d.takeWord with pos := .done }.shiftByte
  | .outside => d.shiftByte
  | .writeAll _ => d.shiftByte
  | .writeReg _ => d.shiftByte
  | .done => d.shiftByte

/-- What the device returns for an `Xfer` that sends `v`. A frame that starts with an `Xfer` takes its
word there. After `0x43` the outgoing byte goes to the next register as a `Tx` byte does, where R58
names the `Tx` bytes only (DESIGN CHOICE, log 13; no frame of the block has an `Xfer` there). -/
def ReferenceDevice.exchange (d : ReferenceDevice) (v : Byte) : Option Byte × ReferenceDevice :=
  let taken := if d.pos = .start then d.takeWord else d
  let (w, d') := taken.shiftByte
  (w, d'.send v)

/-- The device's answer to a `Poll`: the next scripted answer, or ready. -/
def ReferenceDevice.poll (d : ReferenceDevice) : Bool × ReferenceDevice :=
  match d.polls with
  | [] => (false, d)
  | c :: cs => (c, { d with polls := cs })

/-! ## What each capability call does to the environment (20_memory.md R46, R47) -/

/-- `select(active)`. -/
def Environment.select (e : Environment) (active : Bool) : Environment :=
  match e with
  | .script bytes polls later => .script bytes polls later
  | .reference d => .reference (d.select active)

/-- `send(v)`. -/
def Environment.send (e : Environment) (v : Byte) : Environment :=
  match e with
  | .script bytes polls later => .script bytes polls later
  | .reference d => .reference (d.send v)

/-- `receive()`; none where nothing fixes the byte. -/
def Environment.receive (e : Environment) : Option Byte × Environment :=
  match e with
  | .script [] polls later => (none, .script [] polls later)
  | .script (v :: bytes) polls later => (some v, .script bytes polls later)
  | .reference d => (d.receive.1, .reference d.receive.2)

/-- `send_receive(v)`; none where nothing fixes the byte. -/
def Environment.exchange (e : Environment) (v : Byte) : Option Byte × Environment :=
  match e with
  | .script [] polls later => (none, .script [] polls later)
  | .script (w :: bytes) polls later => (some w, .script bytes polls later)
  | .reference d => ((d.exchange v).1, .reference (d.exchange v).2)

/-- `is_converting()`; none where nothing fixes the answer. -/
def Environment.poll (e : Environment) : Option Bool × Environment :=
  match e with
  | .script bytes [] later => (later, .script bytes [] later)
  | .script bytes (c :: polls) later => (some c, .script bytes polls later)
  | .reference d => (some d.poll.1, .reference d.poll.2)

/-! ## The six capabilities as the block calls them (00_scope.md section 7) -/

/-- One entry appended to the trace (20_memory.md R45). -/
def Bus.emit (b : Bus) (e : Event) : Bus := { b with trace := b.trace ++ [e] }

/-- The answer a call gets: the one the environment fixes, else the next free value (log 3, log 4). -/
def Bus.answer {α : Type} (b : Bus) (a : Option α × Environment) (free : Nat → α) : α × Bus :=
  match a.1 with
  | some v => (v, { b with env := a.2 })
  | none => (free b.draws, { b with env := a.2, draws := b.draws + 1 })

/-- `Sel(active)`. -/
def Bus.sel (b : Bus) (active : Bool) : Bus :=
  { b with env := b.env.select active }.emit (.select active)

/-- `Dly(n)`. -/
def Bus.dly (b : Bus) (n : Nat) : Bus := b.emit (.delay n)

/-- `Tx(v)`. -/
def Bus.tx (b : Bus) (v : Byte) : Bus := { b with env := b.env.send v }.emit (.tx v)

/-- `Rx()`. -/
def Bus.rx (b : Bus) : Byte × Bus :=
  let r := b.answer b.env.receive Config.freeByte
  (r.1, r.2.emit (.rx r.1))

/-- `Xfer(v)`. -/
def Bus.xfer (b : Bus) (v : Byte) : Byte × Bus :=
  let r := b.answer (b.env.exchange v) Config.freeByte
  (r.1, r.2.emit (.xfer v r.1))

/-- `Poll()`: `true` while converting (41_transport.md R130). -/
def Bus.poll (b : Bus) : Bool × Bus :=
  let r := b.answer b.env.poll Config.freePoll
  (r.1, r.2.emit (.poll r.1))

/-- `Frame(body)`: the select frame with its two guard delays (41_transport.md R120). -/
def Bus.frame {α : Type} (b : Bus) (tCs : Nat) (body : Bus → α × Bus) : α × Bus :=
  let r := body ((b.sel true).dly tCs)
  (r.1, (r.2.dly tCs).sel false)

/-- Bytes transmitted one after another (20_memory.md R53). -/
def Bus.send (b : Bus) : List Byte → Bus
  | [] => b
  | v :: vs => (b.tx v).send vs

/-- A frame that only transmits (30_encoding.md R71). -/
def Bus.sendFrame (b : Bus) (tCs : Nat) (bytes : List Byte) : Bus :=
  (b.frame tCs (fun b' => ((), b'.send bytes))).2

/-! ## The channel registers (10_state.md R12) -/

/-- `CH[k]`. -/
def Channels.read (c : Channels) (k : Fin 4) : Sample :=
  match k.val with
  | 0 => c.ch0
  | 1 => c.ch1
  | 2 => c.ch2
  | _ => c.ch3

/-- `CH[k] <- v`. -/
def Channels.write (c : Channels) (k : Fin 4) (v : Sample) : Channels :=
  match k.val with
  | 0 => { c with ch0 := v }
  | 1 => { c with ch1 := v }
  | 2 => { c with ch2 := v }
  | _ => { c with ch3 := v }

/-! ## How an operation ends -/

/-- The four errors of 60_exceptions.md R210. -/
inductive Error where
  | handleNotInitialized
  | missingCapability
  | conversionTimeout
  | invalidGainForTopology
  deriving DecidableEq, Repr

/-- The code `ERR` reports (60_exceptions.md R210). -/
def Error.code : Error → BitVec 3
  | .handleNotInitialized => 1
  | .missingCapability => 2
  | .conversionTimeout => 3
  | .invalidGainForTopology => 4

/-- `(PHASE, K) <- (IDLE, 0)`, with nothing latched any more: the block accepts the next operation. -/
def State.park (s : State) : State :=
  { s with phase := .idle, k := 0, latch := none, waiting := false }

/-- `raise E`, the one way an error outcome is taken (60_exceptions.md R217): `ERR <- code(E)`,
`(PHASE, K) <- (IDLE, 0)`, every other register as it was. Nothing is saved, and the spec has no
return from an error (R220). -/
def State.raise (s : State) (e : Error) : State := { s.park with err := e.code }

/-- An operation that completes writes `ERR <- 0` (10_state.md R19; 41_transport.md R131). -/
def State.succeed (s : State) : State := { s with err := 0 }

/-- A sequence that completes also returns to `(IDLE, 0)` (43_sequencer.md R173). -/
def State.complete (s : State) : State := s.park.succeed

end Sys2Proof.Machine
end

