-- ==== Sys2Proof/Machine/Flags.lean ====
section
/-! DEFINITION. The status fields: how `WARN` is computed (10_state.md R19), and the checks that decide
`ERR` before any bus event, in their order (60_exceptions.md R218; 43_sequencer.md R161 to R163). -/

namespace Sys2Proof.Machine

/-- `WARN`: an optional capability is missing (44_lifecycle.md R200). -/
def warnFlag (p : Params) : Bool := !p.capXfer || !p.capDrdy

/-- `MissingCapability`: every sequence needs the data-ready poll, a continuous one the combined
transfer too (43_sequencer.md R162). -/
def capabilityMissing (p : Params) (mode : Mode) : Bool :=
  !p.capDrdy || (mode == .cc && !p.capXfer)

/-- A requested gain code is outside {0, 1, 2} (43_sequencer.md R163). -/
def gainTooHigh (o : Option GainCode) : Bool := o.any (fun g => decide (g.toNat > 2))

/-- `InvalidGainForTopology`: the check is on, the topology is single-ended, and some requested gain
code is above 2 (43_sequencer.md R163). -/
def gainInvalid (p : Params) (op : Latch) : Bool :=
  p.checkGain && op.top == .se &&
    (gainTooHigh op.ovr0 || gainTooHigh op.ovr1 || gainTooHigh op.ovr2 || gainTooHigh op.ovr3)

/-- The checks of phase `ENTRY`: the first that fails is the error (43_sequencer.md R161). -/
def entryError (s : State) (op : Latch) : Option Error :=
  if !s.inited then some .handleNotInitialized
  else if capabilityMissing s.params op.mode then some .missingCapability
  else if gainInvalid s.params op then some .invalidGainForTopology
  else none

end Sys2Proof.Machine
end

