-- ==== Sys2Proof/Machine/Transport.lean ====
section
/-! DEFINITION. The Transport Primitives (41_transport.md): the procedures, the seven host operations
that are one procedure under the host wrapper, and the six wire commands. -/

namespace Sys2Proof.Machine

open Host (Outcome)

/-! ## The procedures -/

/-- `Reset()` (41_transport.md R122). -/
def Bus.resetDevice (b : Bus) (p : Params) : Bus :=
  ((b.dly p.tRst).sendFrame p.tCs [0x06]).dly p.tRst

/-- `StartSync()` (41_transport.md R123). -/
def Bus.startSync (b : Bus) (p : Params) : Bus := b.sendFrame p.tCs [0x08]

/-- `PowerDown()` (41_transport.md R124). -/
def Bus.powerDown (b : Bus) (p : Params) : Bus := b.sendFrame p.tCs [0x02]

/-- `RReg(a)` (41_transport.md R125). -/
def Bus.rreg (b : Bus) (p : Params) (a : RegAddr) : Byte × Bus :=
  b.frame p.tCs (fun b' => (b'.tx (readCommand a)).rx)

/-- `WReg4(v)` (41_transport.md R126). -/
def Bus.wreg4 (b : Bus) (p : Params) (v : RegBytes) : Bus :=
  b.sendFrame p.tCs [0x43, v.b0, v.b1, v.b2, v.b3]

/-- `WReg1(a, v)` (41_transport.md R127). -/
def Bus.wreg1 (b : Bus) (p : Params) (a : RegAddr) (v : Byte) : Bus :=
  b.sendFrame p.tCs [writeCommand a, v]

/-- `SDEC(RData())`: three bytes received in one frame, without a command byte, and decoded
(41_transport.md R128). -/
def Bus.rdata (b : Bus) (p : Params) : Sample × Bus :=
  b.frame p.tCs (fun b' =>
    let r0 := b'.rx
    let r1 := r0.2.rx
    let r2 := r1.2.rx
    (sdec r0.1 r1.1 r2.1, r2.2))

/-- `SDEC(XRdWr(v))`: three combined transfers in one frame that write `v` to register 0 and read the
conversion word (41_transport.md R129). -/
def Bus.xrdwr (b : Bus) (p : Params) (v : Byte) : Sample × Bus :=
  b.frame p.tCs (fun b' =>
    let r0 := b'.xfer 0x40
    let r1 := r0.2.xfer v
    let r2 := r1.2.xfer p.xferFill
    (sdec r0.1 r1.1 r2.1, r2.2))

/-! ## The host operations -/

/-- `HOST(proc)`: fails fast when the handle is not initialised, else runs the procedure and writes
`ERR <- 0` (41_transport.md R131). -/
def hostOp (s : State) (proc : State → State) : Outcome State Fault Refusal :=
  if s.inited then .next (proc s).succeed else .next (s.raise .handleNotInitialized)

/-- `RESET` (41_transport.md R122): no register changes but `ERR`. -/
def execReset (s : State) : Outcome State Fault Refusal :=
  hostOp s (fun s => { s with bus := s.bus.resetDevice s.params })

/-- `START` (41_transport.md R123). -/
def execStart (s : State) : Outcome State Fault Refusal :=
  hostOp s (fun s => { s with bus := s.bus.startSync s.params })

/-- `PWRDN` (41_transport.md R124). -/
def execPwrdn (s : State) : Outcome State Fault Refusal :=
  hostOp s (fun s => { s with bus := s.bus.powerDown s.params })

/-- `RREG a`: `RB <- RReg(a)` (41_transport.md R125). -/
def execRreg (a : RegAddr) (s : State) : Outcome State Fault Refusal :=
  hostOp s (fun s => { s with rb := (s.bus.rreg s.params a).1, bus := (s.bus.rreg s.params a).2 })

/-- `WREG4 v0, v1, v2, v3` (41_transport.md R126). -/
def execWreg4 (v0 v1 v2 v3 : Byte) (s : State) : Outcome State Fault Refusal :=
  hostOp s (fun s => { s with bus := s.bus.wreg4 s.params ⟨v0, v1, v2, v3⟩ })

/-- `WREG1 a, v` (41_transport.md R127). -/
def execWreg1 (a : RegAddr) (v : Byte) (s : State) : Outcome State Fault Refusal :=
  hostOp s (fun s => { s with bus := s.bus.wreg1 s.params a v })

/-- `RDATA`: `SR <- SDEC(RData())` (41_transport.md R128). -/
def execRdata (s : State) : Outcome State Fault Refusal :=
  hostOp s (fun s => { s with sr := (s.bus.rdata s.params).1, bus := (s.bus.rdata s.params).2 })

/-! ## The wire commands

Each is the procedure its row of the opcode table names, run without the host wrapper: no test of
`INITED`, no write of `ERR` (log 8). -/

/-- `W.RESET` (30_encoding.md R72; 41_transport.md R122). -/
def execWReset (s : State) : Outcome State Fault Refusal :=
  .next { s with bus := s.bus.resetDevice s.params }

/-- `W.START` (30_encoding.md R72; 41_transport.md R123). -/
def execWStart (s : State) : Outcome State Fault Refusal :=
  .next { s with bus := s.bus.startSync s.params }

/-- `W.PWRDN` (30_encoding.md R72; 41_transport.md R124). -/
def execWPwrdn (s : State) : Outcome State Fault Refusal :=
  .next { s with bus := s.bus.powerDown s.params }

/-- `W.RREG` (30_encoding.md R72; 41_transport.md R125). The byte goes to the caller; on its own the
command writes no register, `RB` being the host operation's (10_state.md R14; log 20). -/
def execWRreg (a : RegAddr) (s : State) : Outcome State Fault Refusal :=
  .next { s with bus := (s.bus.rreg s.params a).2 }

/-- `W.WREG4` (30_encoding.md R72; 41_transport.md R126). -/
def execWWreg4 (v0 v1 v2 v3 : Byte) (s : State) : Outcome State Fault Refusal :=
  .next { s with bus := s.bus.wreg4 s.params ⟨v0, v1, v2, v3⟩ }

/-- `W.WREG1` (30_encoding.md R72; 41_transport.md R127). -/
def execWWreg1 (a : RegAddr) (v : Byte) (s : State) : Outcome State Fault Refusal :=
  .next { s with bus := s.bus.wreg1 s.params a v }

end Sys2Proof.Machine
end

