-- ==== Sys2Proof/Machine/Lifecycle.lean ====
section
/-! DEFINITION. Initialisation and reconfiguration (44_lifecycle.md). -/

namespace Sys2Proof.Machine

open Host (Outcome)

/-- `INIT c` (44_lifecycle.md R200): the device reset, the bulk write of `ENC(c)`, then `WARN`,
`INITED` and `ERR`. It is the one operation that does not test `INITED`. -/
def execInit (c : Configuration) (s : State) : Outcome State Fault Refusal :=
  .next ({ s with
    bus := (s.bus.resetDevice s.params).wreg4 s.params (enc c)
    warn := warnFlag s.params
    inited := true }).succeed

/-- `CONFIG c` (44_lifecycle.md R201): the bulk write of `ENC(c)`. -/
def execConfig (c : Configuration) (s : State) : Outcome State Fault Refusal :=
  hostOp s (fun s => { s with bus := s.bus.wreg4 s.params (enc c) })

end Sys2Proof.Machine
end

