-- ==== Sys2Proof/Machine/Sequencer.lean ====
section
/-! DEFINITION. The Acquisition Sequencer (43_sequencer.md): the step of each phase, the transition
relation of rule R179, and the four operations `RDALL.*`. -/

namespace Sys2Proof.Machine

open Host (Outcome)

/-! ## The phases -/

/-- Phase `ENTRY` (43_sequencer.md R161, R164): the checks, then the read-back of register 0. -/
def entryPhase (op : Latch) (s : State) : Outcome State Fault Refusal :=
  match entryError s op with
  | some e => .next (s.raise e)
  | none =>
    let r := s.bus.rreg s.params 0
    .next { s with nvalid := 0, orig := r.1, r0s := r.1, bus := r.2, phase := .waking, k := 0 }

/-- One turn of `WaitReady()` (41_transport.md R130), after which the sequence stands in `after` when
the answer was "ready". "Converting" counts; at the limit it raises `ConversionTimeout`
(43_sequencer.md R183), below it the phase stands and the next turn polls again (log 9). `first` says
that this is the wait's first turn, which clears `PCNT`. -/
def waitReady (first : Bool) (after : Phase) (s : State) : Outcome State Fault Refusal :=
  if s.params.capDrdy then
    let r := s.bus.poll
    let polls := if first then 0 else s.pcnt
    if r.1 then
      let s' := { s with bus := r.2, pcnt := polls + 1, waiting := true }
      if s.params.pollLimit.any (fun limit => decide (polls + 1 ≥ limit)) then
        .next (s'.raise .conversionTimeout)
      else .next s'
    else .next { s with bus := r.2, pcnt := polls, waiting := false, phase := after }
  else .fault (.unboundCapability .isConverting)

/-- Phase `WAKING` (43_sequencer.md R166): with `P.WAKE`, a start/sync and a wait; else nothing. -/
def wakingPhase (s : State) : Outcome State Fault Refusal :=
  if s.params.wake then
    if s.waiting then waitReady false .configuring s
    else waitReady true .configuring { s with bus := s.bus.startSync s.params }
  else .next { s with phase := .configuring }

/-- `Configure(k)` (43_sequencer.md R168): a continuous sequence has written the channels after the
first in the burst before; otherwise the value is written, or, where `P.SKIP_UNCHANGED` allows and it
is resident, a start/sync is sent. -/
def configure (op : Latch) (s : State) : State :=
  let v := s.channelValue op s.k
  if op.mode == .cc && decide (1 ≤ s.k.val) then s
  else if v != s.r0s || !s.params.skipUnchanged then
    { s with bus := s.bus.wreg1 s.params 0 v, r0s := v }
  else { s with bus := s.bus.startSync s.params }

/-- Phase `CONFIGURING` (43_sequencer.md R168, R179). -/
def configuringPhase (op : Latch) (s : State) : Outcome State Fault Refusal :=
  .next { configure op s with phase := .converting }

/-- Phase `CONVERTING` (43_sequencer.md R169). -/
def convertingPhase (s : State) : Outcome State Fault Refusal :=
  waitReady (!s.waiting) .reading s

/-- `CH[k] <- SR; NVALID <- k + 1`, after `SR` is written (43_sequencer.md R170, R171). -/
def State.store (s : State) (v : Sample) : State :=
  { s with sr := v, ch := s.ch.write s.k v, nvalid := s.k.succ }

/-- The single-shot read (43_sequencer.md R170). -/
def readPlain (s : State) : Outcome State Fault Refusal :=
  let r := s.bus.rdata s.params
  .next ({ s with bus := r.2 }.store r.1)

/-- The value a pipelined burst writes: the next channel's, or `ORIG` after the last channel
(43_sequencer.md R171; log 11). -/
def nextValue (op : Latch) (s : State) : Byte :=
  if s.k.val + 1 < op.top.channels then s.channelValue op (s.k + 1) else s.orig

/-- `ReadPipelined(k)` (43_sequencer.md R171). -/
def readPipelined (op : Latch) (s : State) : Outcome State Fault Refusal :=
  if s.params.capXfer then
    let nxt := nextValue op s
    let r := s.bus.xrdwr s.params nxt
    .next ({ s with bus := r.2, r0s := nxt }.store r.1)
  else .fault (.unboundCapability .sendReceive)

/-- After channel `K` is read: the next channel, or `RESTORING` after the last
(43_sequencer.md R179; log 11). -/
def State.advance (s : State) (op : Latch) : State :=
  if s.k.val + 1 < op.top.channels then { s with phase := .configuring, k := s.k + 1 }
  else { s with phase := .restoring }

/-- Phase `READING` (43_sequencer.md R170, R171, R179). -/
def readingPhase (op : Latch) (s : State) : Outcome State Fault Refusal :=
  match match op.mode with
    | .ss => readPlain s
    | .cc => readPipelined op s with
  | .next t => .next (t.advance op)
  | .fault f => .fault f
  | .refused r => .refused r

/-- Phase `RESTORING` and completion (43_sequencer.md R172, R173). -/
def restoringPhase (op : Latch) (s : State) : Outcome State Fault Refusal :=
  match op.mode with
  | .ss => .next ({ s with bus := s.bus.wreg1 s.params 0 s.orig, r0s := s.orig }).complete
  | .cc => .next s.complete

/-! ## The transition relation -/

/-- One row of 43_sequencer.md R179. A transition whose wait was answered "converting" leaves the phase
where it is and sets `waiting`. -/
def transition (s : State) : Outcome State Fault Refusal :=
  match s.phase, s.latch with
  | .idle, _ => .next s
  | _, none => .fault .noLatchedOperation
  | .entry, some op => entryPhase op s
  | .waking, some _ => wakingPhase s
  | .configuring, some op => configuringPhase op s
  | .converting, some _ => convertingPhase s
  | .reading, some op => readingPhase op s
  | .restoring, some op => restoringPhase op s

/-- Transitions one after another, at most `fuel` of them, until the block is idle or the device is
still converting (log 9). -/
def runTransitions : Nat → State → Outcome State Fault Refusal
  | 0, s => .next s
  | fuel + 1, s =>
    match transition s with
    | .next t => if t.phase == .idle || t.waiting then .next t else runTransitions fuel t
    | .fault f => .fault f
    | .refused r => .refused r

/-- No sequence makes more transitions than this between two polls answered "converting": `ENTRY`,
`WAKING`, three for each of four channels, `RESTORING` (43_sequencer.md R179). -/
def maxTransitions : Nat := 15

/-- The running sequence goes on until it ends or the device is still converting. -/
def resume (s : State) : Outcome State Fault Refusal := runTransitions maxTransitions s

/-- An `RDALL.*` is accepted: its operands are latched and the block enters `ENTRY`
(43_sequencer.md R179). -/
def State.accept (s : State) (op : Latch) : State :=
  { s with latch := some op, phase := .entry, k := 0, waiting := false }

/-- `ReadAll(top, mode, ovr)` (43_sequencer.md R174), as far as it goes before the device is found
still converting; `resume` takes it from there. -/
def readAll (op : Latch) (s : State) : Outcome State Fault Refusal := resume (s.accept op)

/-! ## The operations -/

/-- `RDALL.D.SS ovr` is `ReadAll(DIFF, SS, ovr)` (43_sequencer.md R175). -/
def execRdallDSs (ovm : BitVec 2) (g0 g1 : GainCode) (s : State) : Outcome State Fault Refusal :=
  readAll (latchDiff .ss ovm g0 g1) s

/-- `RDALL.D.CC ovr` is `ReadAll(DIFF, CC, ovr)` (43_sequencer.md R176). -/
def execRdallDCc (ovm : BitVec 2) (g0 g1 : GainCode) (s : State) : Outcome State Fault Refusal :=
  readAll (latchDiff .cc ovm g0 g1) s

/-- `RDALL.S.SS ovr` is `ReadAll(SE, SS, ovr)` (43_sequencer.md R177). -/
def execRdallSSs (ovm : BitVec 4) (g0 g1 g2 g3 : GainCode) (s : State) :
    Outcome State Fault Refusal :=
  readAll (latchSe .ss ovm g0 g1 g2 g3) s

/-- `RDALL.S.CC ovr` is `ReadAll(SE, CC, ovr)` (43_sequencer.md R178). -/
def execRdallSCc (ovm : BitVec 4) (g0 g1 g2 g3 : GainCode) (s : State) :
    Outcome State Fault Refusal :=
  readAll (latchSe .cc ovm g0 g1 g2 g3) s

end Sys2Proof.Machine
end

