-- ==== Sys2Proof/Machine/Dispatch.lean ====
section
/-! DEFINITION. exec: one arm per operation of spec/opcode_table.json. -/

namespace Sys2Proof.Machine

def exec (i : Instr) (s : State) : Host.Outcome State Fault Refusal :=
  match i with
  -- the wire commands (30_encoding.md R72)
  | .wReset => Sys2Proof.Machine.execWReset s
  | .wStart => Sys2Proof.Machine.execWStart s
  | .wPwrdn => Sys2Proof.Machine.execWPwrdn s
  | .wRreg a => Sys2Proof.Machine.execWRreg a s
  | .wWreg4 v0 v1 v2 v3 => Sys2Proof.Machine.execWWreg4 v0 v1 v2 v3 s
  | .wWreg1 a v => Sys2Proof.Machine.execWWreg1 a v s
  -- the host operations (30_encoding.md R85)
  | .init c => Sys2Proof.Machine.execInit c s
  | .config c => Sys2Proof.Machine.execConfig c s
  | .reset => Sys2Proof.Machine.execReset s
  | .start => Sys2Proof.Machine.execStart s
  | .pwrdn => Sys2Proof.Machine.execPwrdn s
  | .rreg a => Sys2Proof.Machine.execRreg a s
  | .wreg4 v0 v1 v2 v3 => Sys2Proof.Machine.execWreg4 v0 v1 v2 v3 s
  | .wreg1 a v => Sys2Proof.Machine.execWreg1 a v s
  | .rdata => Sys2Proof.Machine.execRdata s
  | .rdallDSs ovm g0 g1 => Sys2Proof.Machine.execRdallDSs ovm g0 g1 s
  | .rdallDCc ovm g0 g1 => Sys2Proof.Machine.execRdallDCc ovm g0 g1 s
  | .rdallSSs ovm g0 g1 g2 g3 => Sys2Proof.Machine.execRdallSSs ovm g0 g1 g2 g3 s
  | .rdallSCc ovm g0 g1 g2 g3 => Sys2Proof.Machine.execRdallSCc ovm g0 g1 g2 g3 s

end Sys2Proof.Machine
end

