-- ==== Sys2Proof/Machine/Port.lean ====
section
/-! DEFINITION. The operation port: taking the next request (20_memory.md R55; 30_encoding.md R85,
R89). -/

namespace Sys2Proof.Machine

/-- What an idle block finds at the port. -/
inductive PortEvent where
  /-- No request is presented. -/
  | nothing
  /-- A malformed request was dropped; the state is the one left (30_encoding.md R89). -/
  | malformed (s : State)
  /-- An operation was taken; the state is the one it starts in. -/
  | operation (i : Instr) (s : State)
  deriving DecidableEq, Repr

/-- The request at the head of the queue is taken and decoded. -/
def State.nextRequest (s : State) : PortEvent :=
  match s.pending with
  | [] => .nothing
  | r :: rest =>
    match decode r with
    | .error _ => .malformed { s with pending := rest }
    | .ok i => .operation i { s with pending := rest }

/-- `s` idle, with `r` the next request: in an idle state only the queue changes. -/
def State.present (s : State) (r : Request) : State := { s.park with pending := r :: s.pending }

end Sys2Proof.Machine
end

