-- ==== Sys2Proof/Machine/Step.lean ====
section
/-! DEFINITION. One step of the block: a running sequence goes on, or the operation port serves the next
request (20_memory.md R55). -/

namespace Sys2Proof.Machine

open Host (Outcome)

/-- One step. While a sequence runs no request is taken (20_memory.md R55): the sequence goes on. An
idle block serves the next request: a well-formed one is executed, a malformed one is dropped with no
effect (30_encoding.md R89; log 7). With no request the block stays idle (10_state.md R20; log 6). -/
def step (s : State) : Outcome State Fault Refusal :=
  if s.phase == .idle then
    match s.nextRequest with
    | .nothing => .next s
    | .malformed t => .next t
    | .operation i t => exec i t
  else resume s

/-- `s` with a table word presented at the operation port, the port free, so that the next step
executes it (log 6, log 14). -/
def State.withFetchWord (s : State) (nbits w : Nat) : State := s.present (tableRequest nbits w)

end Sys2Proof.Machine
end

