-- ==== Sys2Proof/Safety.lean ====
section
/-! DEFINITION. The terms claims are stated in: the idle block, the frames and the traces of
41_transport.md rule R132, what a sequence emits, and the invariant every step keeps. -/

namespace Sys2Proof.Safety

open Sys2Proof.Machine

/-! ## The idle block and the sequences -/

/-- The block is idle: it accepts a host operation (20_memory.md R55; 10_state.md R20). -/
def BlockIdle (s : State) : Prop :=
  s.phase = .idle ∧ s.k = 0 ∧ s.latch = none ∧ s.waiting = false

/-- The operands an `RDALL.*` latches (43_sequencer.md R160); none for every other operation. -/
def sequenceOf : Instr → Option Latch
  | .rdallDSs ovm g0 g1 => some (latchDiff .ss ovm g0 g1)
  | .rdallDCc ovm g0 g1 => some (latchDiff .cc ovm g0 g1)
  | .rdallSSs ovm g0 g1 g2 g3 => some (latchSe .ss ovm g0 g1 g2 g3)
  | .rdallSCc ovm g0 g1 g2 g3 => some (latchSe .cc ovm g0 g1 g2 g3)
  | .wReset | .wStart | .wPwrdn | .wRreg _ | .wWreg4 _ _ _ _ | .wWreg1 _ _ => none
  | .init _ | .config _ | .reset | .start | .pwrdn | .rreg _ | .wreg4 _ _ _ _ | .wreg1 _ _ | .rdata => none

/-- The operation is `INIT`. -/
def isInit : Instr → Bool
  | .init _ => true
  | .wReset | .wStart | .wPwrdn | .wRreg _ | .wWreg4 _ _ _ _ | .wWreg1 _ _ => false
  | .config _ | .reset | .start | .pwrdn | .rreg _ | .wreg4 _ _ _ _ | .wreg1 _ _ | .rdata => false
  | .rdallDSs _ _ _ | .rdallDCc _ _ _ | .rdallSSs _ _ _ _ _ | .rdallSCc _ _ _ _ _ => false

/-! ## Frames (30_encoding.md R71, R72; 41_transport.md R132) -/

/-- The eight frame shapes, with the bytes the environment returned. -/
inductive FrameShape where
  | reset
  | start
  | pwrdn
  | rreg (a : RegAddr) (v : Byte)
  | wreg4 (v0 v1 v2 v3 : Byte)
  | wreg1 (a : RegAddr) (v : Byte)
  | rdata (b0 b1 b2 : Byte)
  | xrdwr (v b0 b1 b2 : Byte)
  deriving DecidableEq, Repr

/-- The read command bytes as 30_encoding.md R72 lists them. -/
def readCommandByte (a : RegAddr) : Byte :=
  match a.toNat with
  | 0 => 0x20
  | 1 => 0x24
  | 2 => 0x28
  | _ => 0x2C

/-- The write command bytes as 30_encoding.md R72 lists them. -/
def writeCommandByte (a : RegAddr) : Byte :=
  match a.toNat with
  | 0 => 0x40
  | 1 => 0x44
  | 2 => 0x48
  | _ => 0x4C

/-- The events between the two guard delays (41_transport.md R132). -/
def FrameShape.data (p : Params) : FrameShape → List Event
  | .reset => [.tx 0x06]
  | .start => [.tx 0x08]
  | .pwrdn => [.tx 0x02]
  | .rreg a v => [.tx (readCommandByte a), .rx v]
  | .wreg4 v0 v1 v2 v3 => [.tx 0x43, .tx v0, .tx v1, .tx v2, .tx v3]
  | .wreg1 a v => [.tx (writeCommandByte a), .tx v]
  | .rdata b0 b1 b2 => [.rx b0, .rx b1, .rx b2]
  | .xrdwr v b0 b1 b2 => [.xfer 0x40 b0, .xfer v b1, .xfer p.xferFill b2]

/-- A whole frame (41_transport.md R120, R132). -/
def FrameShape.events (p : Params) (f : FrameShape) : List Event :=
  [.select true, .delay p.tCs] ++ f.data p ++ [.delay p.tCs, .select false]

/-- `Reset()`: the reset frame between its two holds (41_transport.md R122). -/
def resetEvents (p : Params) : List Event :=
  [.delay p.tRst] ++ FrameShape.reset.events p ++ [.delay p.tRst]

/-- A trace made of whole frames of the eight shapes, the reset frame always between its holds, and of
polls outside every frame: nothing else, and no frame left open (30_encoding.md R71; 41_transport.md
R132; 20_memory.md R50). -/
inductive Framed (p : Params) : List Event → Prop where
  | empty : Framed p []
  | frame (tr : List Event) (f : FrameShape) (notReset : f ≠ .reset) :
      Framed p tr → Framed p (tr ++ f.events p)
  | reset (tr : List Event) : Framed p tr → Framed p (tr ++ resetEvents p)
  | poll (tr : List Event) (converting : Bool) :
      Framed p tr → Framed p (tr ++ [.poll converting])

/-! ## What a sequence emits (43_sequencer.md R174) -/

/-- The three bytes of one data read, in order of arrival. -/
structure DataBytes where
  b0 : Byte
  b1 : Byte
  b2 : Byte
  deriving DecidableEq, Repr

/-- The bytes as the environment gives them. -/
def DataBytes.bytes (d : DataBytes) : List Byte := [d.b0, d.b1, d.b2]

/-- The decoded sample: the sign-extended 24-bit word, first byte most significant
(42_sample_decoder.md R151). -/
def DataBytes.sample (d : DataBytes) : Sample := (d.b0 ++ d.b1 ++ d.b2).signExtend 32

/-- The poll answers of a wait: "converting" `n` times, then "ready" (41_transport.md R130). -/
def waitPolls (n : Nat) : List Bool := List.replicate n true ++ [false]

/-- The events of that wait. -/
def waitEvents (n : Nat) : List Event := (waitPolls n).map .poll

/-- A wait answered "ready" after `n` polls does not time out: none of them reaches the limit
(41_transport.md R130). -/
def BelowLimit (p : Params) (n : Nat) : Prop :=
  ∀ limit, p.pollLimit = some limit → n = 0 ∨ n < limit

/-- The Waking step, its wait answered "converting" `n` times (43_sequencer.md R166). -/
def wakeEvents (p : Params) (n : Nat) : List Event :=
  if p.wake then FrameShape.start.events p ++ waitEvents n else []

/-- The poll answers the Waking step takes. -/
def wakePolls (p : Params) (n : Nat) : List Bool := if p.wake then waitPolls n else []

/-- The Configuring step that issues something: a write of `v`, or a start/sync where the skip is
allowed and `v` is resident (43_sequencer.md R168). -/
def configureEvents (p : Params) (v resident : Byte) : List Event :=
  if v ≠ resident ∨ p.skipUnchanged = false then (FrameShape.wreg1 0 v).events p
  else FrameShape.start.events p

/-- The wait for one channel and its plain read (43_sequencer.md R169, R170). -/
def plainRead (p : Params) (n : Nat) (d : DataBytes) : List Event :=
  waitEvents n ++ (FrameShape.rdata d.b0 d.b1 d.b2).events p

/-- The wait for one channel and its pipelined read, which writes `nxt` (43_sequencer.md R169, R171). -/
def burstRead (p : Params) (n : Nat) (nxt : Byte) (d : DataBytes) : List Event :=
  waitEvents n ++ (FrameShape.xrdwr nxt d.b0 d.b1 d.b2).events p

/-- The entry read-back and the Waking step (43_sequencer.md R164, R166). -/
def openingEvents (p : Params) (n : Nat) (orig : Byte) : List Event :=
  (FrameShape.rreg 0 orig).events p ++ wakeEvents p n

/-! ## The data reads of a trace (30_encoding.md R75, R76) -/

/-- A frame in which these bytes were received is a data read when there are three of them. -/
def frameRead : List Byte → List DataBytes
  | [b0, b1, b2] => [⟨b0, b1, b2⟩]
  | _ => []

/-- The data reads of a trace, the open frame having received `got` before it. -/
def dataReadsFrom (got : List Byte) : List Event → List DataBytes
  | [] => []
  | .select true :: tr => dataReadsFrom [] tr
  | .select false :: tr => frameRead got ++ dataReadsFrom [] tr
  | .rx v :: tr => dataReadsFrom (got ++ [v]) tr
  | .xfer _ v :: tr => dataReadsFrom (got ++ [v]) tr
  | .tx _ :: tr => dataReadsFrom got tr
  | .delay _ :: tr => dataReadsFrom got tr
  | .poll _ :: tr => dataReadsFrom got tr

/-- The data reads of a trace, oldest first. -/
def dataReads (tr : List Event) : List DataBytes := dataReadsFrom [] tr

/-- From `s`, where the channels below `first` had been read, a sequence has come to `t` with these
further data reads, and has stored them: the `n`-th is channel `first + n`, the last is in `SR`, and
every other channel register is as it was (43_sequencer.md R170, R171, R181). -/
structure ReadsStored (s t : State) (first : Nat) (reads : List DataBytes) : Prop where
  traced : dataReads t.bus.trace = dataReads s.bus.trace ++ reads
  counted : t.nvalid.val = first + reads.length
  stored : ∀ (n : Nat) (j : Fin 4) (d : DataBytes), j.val = first + n → reads[n]? = some d →
    t.ch.read j = d.sample
  kept : ∀ j : Fin 4, j.val < first ∨ t.nvalid.val ≤ j.val → t.ch.read j = s.ch.read j
  last : t.sr = (reads.getLast?.map DataBytes.sample).getD s.sr

/-! ## The trace without the bytes received (43_sequencer.md R185 (a)) -/

/-- An event with the byte received, if any, blotted out. -/
def Event.blot : Event → Event
  | .select active => .select active
  | .delay n => .delay n
  | .tx v => .tx v
  | .rx _ => .rx 0
  | .xfer v _ => .xfer v 0
  | .poll c => .poll c

/-- Two states of a running sequence that differ at most in data: the bytes the environment still has
for the block (the same number of them), the bytes received, and the sample registers. -/
def SameButData (s t : State) : Prop :=
  (∃ bytes bytes' polls later,
    s.bus.env = .script bytes polls later ∧ t.bus.env = .script bytes' polls later ∧
      bytes.length = bytes'.length) ∧
  s.bus.trace.map Event.blot = t.bus.trace.map Event.blot ∧ s.bus.draws = t.bus.draws ∧
  t = { s with sr := t.sr, ch := t.ch, bus := t.bus }

/-! ## The invariant -/

/-- What holds while a sequence runs, between two steps: it waits, in `WAKING` or `CONVERTING`, with
the capabilities it needs bound, its poll count within the limit, `NVALID = K` channels read, the last
of them in `SR`, and `R0S` the value the channel's Configuring step left resident (43_sequencer.md
R161 to R171; 10_state.md R13, R17, R18, R20). -/
structure SequenceInv (s : State) (op : Latch) : Prop where
  latched : s.latch = some op
  initialised : s.inited = true
  waits : s.waiting = true
  pollBound : s.params.capDrdy = true
  xferBound : op.mode = .cc → s.params.capXfer = true
  counted : 1 ≤ s.pcnt
  belowLimit : ∀ limit, s.params.pollLimit = some limit → s.pcnt < limit
  valid : s.nvalid.val = s.k.val
  inRange : s.k.val < op.top.channels
  lastSample : ∀ j : Fin 4, s.k.val = j.val + 1 → s.sr = s.ch.read j
  position :
    (s.phase = .waking ∧ s.params.wake = true ∧ s.k = 0 ∧ s.r0s = s.orig) ∨
      (s.phase = .converting ∧ s.r0s = s.channelValue op s.k)

/-- The invariant: `ERR` is one of the codes 0 to 4 (60_exceptions.md R210), and the block is idle or a
sequence waits. -/
structure Inv (s : State) : Prop where
  code : s.err.toNat ≤ 4
  position : BlockIdle s ∨ ∃ op, SequenceInv s op

/-! ## Runs -/

/-- `n` steps, stopping at the first fault or refusal. -/
def runSteps : Nat → State → Host.Outcome State Fault Refusal
  | 0, s => .next s
  | n + 1, s =>
    match step s with
    | .next t => runSteps n t
    | .fault f => .fault f
    | .refused r => .refused r

/-- How many polls a trace holds. -/
def pollCount (tr : List Event) : Nat :=
  tr.countP (fun e => match e with | .poll _ => true | _ => false)

/-- How many frames a trace holds: the events `S1`. -/
def frameCount (tr : List Event) : Nat := tr.count (.select true)

/-- The frames of a completed sequence after the read-back and the wake (43_sequencer.md R182):
single-shot, a Configuring frame and a data frame per channel and the restore; continuous, one
Configuring frame in all and a data frame per channel. -/
def channelFrames (op : Latch) : Nat :=
  match op.mode with
  | .ss => 2 * op.top.channels + 1
  | .cc => op.top.channels + 1

/-! ## The reference environment (20_memory.md R58) -/

/-- The environment is the reference environment with no frame open and these device registers. -/
def ReferenceAt (s : State) (regs : DeviceRegs) : Prop :=
  ∃ d, s.bus.env = .reference d ∧ d.pos = .outside ∧ d.regs = regs

end Sys2Proof.Safety
end

