-- ==== Sys2Proof/Certificates/Slice0/Obligations.lean ====
section
/-! DEFINITION. The statements for the provers, in the order of the spec: codec, sample decoder,
encodings, transport, lifecycle, sequencer, errors, the machine as a whole. -/

open Sys2Proof Sys2Proof.Machine Sys2Proof.Safety

/-! ## The register codec and the sample decoder -/

/-- 40_codec.md R103: the round trip, all three of its equations. -/
def Obligations.CodecRoundTripKeepsEveryField : Prop :=
  (∀ c : Configuration, dec0 (enc c).b0 = (c.mux, c.gain, c.pgaBypass)) ∧
  (∀ c : Configuration, dec (enc c) = c) ∧
  ∀ b : RegBytes, enc (dec b) = { b with b3 := b.b3 &&& 0xFE }

/-- 40_codec.md R106: register 0 of `ENC` is `ENC0`, and `ENC0` packs its three fields side by side. -/
def Obligations.RegisterZeroPartOfEncIsEnc0 : Prop :=
  (∀ c : Configuration, (enc c).b0 = enc0 c.mux c.gain c.pgaBypass) ∧
  ∀ (mux : MuxCode) (gain : GainCode) (byp : BitVec 1), enc0 mux gain byp = mux ++ gain ++ byp

/-- 40_codec.md R100 for registers 1 to 3: the fields side by side, most significant first, bit 0 of
register 3 zero. The spec takes these positions from general knowledge (92_eei_decisions.md D4):
PRESUMED, log 15. -/
def Obligations.EncPacksRegistersOneToThree : Prop :=
  ∀ c : Configuration,
    (enc c).b1 = c.dr ++ c.opMode ++ c.convMode ++ c.tempSensor ++ c.burnout ∧
    (enc c).b2 = c.vref ++ c.fir ++ c.psw ++ c.idac ∧
    (enc c).b3 = c.i1mux ++ c.i2mux ++ c.drdyMode ++ 0#1

/-- 42_sample_decoder.md R150, R151: `SDEC` is the canonical algorithm on integers and the sign
extension of the 24-bit word. -/
def Obligations.SampleDecoderSignExtends : Prop :=
  ∀ b0 b1 b2 : Byte,
    sdec b0 b1 b2 = (b0 ++ b1 ++ b2).signExtend 32 ∧
    (sdec b0 b1 b2).toInt =
      (b0.toNat * 65536 + b1.toNat * 256 + b2.toNat : Int) - (if 128 ≤ b0.toNat then 16777216 else 0)

/-- 42_sample_decoder.md R152: the range, and every value of it has exactly one preimage. -/
def Obligations.SampleDecoderIsOneToOneOnItsRange : Prop :=
  (∀ b0 b1 b2 : Byte, -8388608 ≤ (sdec b0 b1 b2).toInt ∧ (sdec b0 b1 b2).toInt ≤ 8388607) ∧
  ∀ v : Int, -8388608 ≤ v → v ≤ 8388607 →
    ∃ b0 b1 b2 : Byte, (sdec b0 b1 b2).toInt = v ∧
      ∀ c0 c1 c2 : Byte, (sdec c0 c1 c2).toInt = v → c0 = b0 ∧ c1 = b1 ∧ c2 = b2

/-! ## Encodings -/

/-- 30_encoding.md R71, R72, R85, R86: decoding the encoding of a well-formed operation gives it
back, for all operations of both spaces. -/
def Obligations.DecodeOfEncodeGivesTheOperationBack : Prop :=
  ∀ i : Instr, i.wf = true → decode (encode i) = .ok i

/-- 30_encoding.md R89: a request that decodes is the one encoding of a well-formed operation. So
every other request (an unknown opcode, too few or too many bytes, an over-wide operand, a gain code
without its `ovm` bit) is refused. -/
def Obligations.EveryDecodedRequestIsAnEncoding : Prop :=
  ∀ (r : Request) (i : Instr), decode r = .ok i → i.wf = true ∧ encode i = r

/-- 30_encoding.md R72: no byte is the command of two rows. -/
def Obligations.NoWireByteSelectsTwoRows : Prop :=
  ∀ b : Byte, (wireRows.filter (fun row => row.selects b)).length ≤ 1

/-- Words of the opcode table, one or two of each family, decode to their operations (sanity). -/
def Obligations.SampleWordsDecodeToTheirOperations : Prop :=
  decodeTableWord 8 0x06 = some .wReset ∧ decodeTableWord 8 0x2C = some (.wRreg 3) ∧
  decodeTableWord 8 0x44 = some (.wWreg1 1 0) ∧ decodeTableWord 16 0x0206 = some (.rreg 2) ∧
  decodeTableWord 24 0x500308 = some (.wreg1 3 0x50) ∧
  decodeTableWord 40 0x726DD55E07 = some (.wreg4 0x5E 0xD5 0x6D 0x72) ∧
  decodeTableWord 32 0x01000211 = some (.rdallDCc 2 0 1) ∧
  decodeTableWord 48 0x000200020213 = none ∧
  decodeTableWord 48 0x000002000213 = some (.rdallSCc 2 0 2 0 0)

/-! ## The channel value -/

/-- 43_sequencer.md R165, the differential topology: the multiplexer code of the channel in bits 7:4,
the override or the resident gain in 3:1, the resident bypass bit; the resident multiplexer nibble is
not used. -/
def Obligations.DifferentialChannelValueKeepsBypass : Prop :=
  ∀ (p : Params) (k : Fin 4) (o : Option GainCode) (orig : Byte), k.val < 2 →
    (chanVal p .diff k o orig).extractLsb' 4 4 = (if k = 0 then 0x0#4 else 0x5#4) ∧
    (chanVal p .diff k o orig).extractLsb' 1 3 = o.getD (orig.extractLsb' 1 3) ∧
    (chanVal p .diff k o orig).getLsbD 0 = orig.getLsbD 0

/-- 43_sequencer.md R165, the single-ended topology: the multiplexer code is the instance's for that
channel, the bypass bit is 1 whatever was resident or requested, the gain goes through
`P.AVSS_GAIN_MAP`, which passes codes 0 to 2 unchanged and sends each other code to the instance's
image of it (00_scope.md R5). -/
def Obligations.SingleEndedChannelValueForcesBypass : Prop :=
  (∀ (p : Params) (k : Fin 4) (o : Option GainCode) (orig : Byte),
    (chanVal p .se k o orig).extractLsb' 4 4 = muxSe p k ∧
    (chanVal p .se k o orig).extractLsb' 1 3 = avssGainMap p (o.getD (orig.extractLsb' 1 3)) ∧
    (chanVal p .se k o orig).getLsbD 0 = true) ∧
  (∀ p : Params, muxSe p 0 = p.muxSe0 ∧ muxSe p 1 = p.muxSe1 ∧ muxSe p 2 = p.muxSe2 ∧
    muxSe p 3 = p.muxSe3) ∧
  (∀ (p : Params) (g : GainCode), g.toNat ≤ 2 → avssGainMap p g = g) ∧
  ∀ p : Params, avssGainMap p 3 = p.avssGain3 ∧ avssGainMap p 4 = p.avssGain4 ∧
    avssGainMap p 5 = p.avssGain5 ∧ avssGainMap p 6 = p.avssGain6 ∧ avssGainMap p 7 = p.avssGain7

/-- 30_encoding.md R86: `ovr[k]` is `some g[k]` when bit `k` of `ovm` is set and `none` otherwise; the
operand is well formed exactly when `g[k]` is 0 wherever bit `k` is clear. -/
def Obligations.OverrideOperandFollowsItsMask : Prop :=
  (∀ (mode : Mode) (ovm : BitVec 2) (g0 g1 : GainCode),
    (latchDiff mode ovm g0 g1).top = .diff ∧ (latchDiff mode ovm g0 g1).mode = mode ∧
    (latchDiff mode ovm g0 g1).ovr 0 = (if ovm.getLsbD 0 then some g0 else none) ∧
    (latchDiff mode ovm g0 g1).ovr 1 = (if ovm.getLsbD 1 then some g1 else none) ∧
    (latchDiff mode ovm g0 g1).ovr 2 = none ∧ (latchDiff mode ovm g0 g1).ovr 3 = none) ∧
  (∀ (mode : Mode) (ovm : BitVec 4) (g0 g1 g2 g3 : GainCode),
    (latchSe mode ovm g0 g1 g2 g3).top = .se ∧ (latchSe mode ovm g0 g1 g2 g3).mode = mode ∧
    (latchSe mode ovm g0 g1 g2 g3).ovr 0 = (if ovm.getLsbD 0 then some g0 else none) ∧
    (latchSe mode ovm g0 g1 g2 g3).ovr 1 = (if ovm.getLsbD 1 then some g1 else none) ∧
    (latchSe mode ovm g0 g1 g2 g3).ovr 2 = (if ovm.getLsbD 2 then some g2 else none) ∧
    (latchSe mode ovm g0 g1 g2 g3).ovr 3 = (if ovm.getLsbD 3 then some g3 else none)) ∧
  (∀ (ovm : BitVec 2) (g0 g1 : GainCode),
    ((Instr.rdallDSs ovm g0 g1).wf = true ↔
      (ovm.getLsbD 0 = false → g0 = 0) ∧ (ovm.getLsbD 1 = false → g1 = 0)) ∧
    ((Instr.rdallDCc ovm g0 g1).wf = true ↔
      (ovm.getLsbD 0 = false → g0 = 0) ∧ (ovm.getLsbD 1 = false → g1 = 0))) ∧
  ∀ (ovm : BitVec 4) (g0 g1 g2 g3 : GainCode),
    ((Instr.rdallSSs ovm g0 g1 g2 g3).wf = true ↔
      (ovm.getLsbD 0 = false → g0 = 0) ∧ (ovm.getLsbD 1 = false → g1 = 0) ∧
      (ovm.getLsbD 2 = false → g2 = 0) ∧ (ovm.getLsbD 3 = false → g3 = 0)) ∧
    ((Instr.rdallSCc ovm g0 g1 g2 g3).wf = true ↔
      (ovm.getLsbD 0 = false → g0 = 0) ∧ (ovm.getLsbD 1 = false → g1 = 0) ∧
      (ovm.getLsbD 2 = false → g2 = 0) ∧ (ovm.getLsbD 3 = false → g3 = 0))

/-! ## Transport: every host operation's result, frame and refusal

Each says: initialised, the operation answers the next state in which `ERR` is 0, the events of
41_transport.md rule R132 are appended, and nothing but what is named changes; not initialised, only
`ERR` changes, to 1 (R131). -/

/-- 41_transport.md R122. -/
def Obligations.ResetSendsTheHeldResetFrame : Prop :=
  encode .reset = ⟨.host, [0x03]⟩ ∧
  ∀ s : State,
    (s.inited = true → ∃ b : Bus,
      exec .reset s = .next { s with bus := b, err := 0 } ∧
      b.trace = s.bus.trace ++ resetEvents s.params ∧ b.draws = s.bus.draws) ∧
    (s.inited = false → BlockIdle s → exec .reset s = .next { s with err := 1 })

/-- 41_transport.md R123. -/
def Obligations.StartSendsTheStartFrame : Prop :=
  encode .start = ⟨.host, [0x04]⟩ ∧
  ∀ s : State,
    (s.inited = true → ∃ b : Bus,
      exec .start s = .next { s with bus := b, err := 0 } ∧
      b.trace = s.bus.trace ++ FrameShape.start.events s.params ∧ b.draws = s.bus.draws) ∧
    (s.inited = false → BlockIdle s → exec .start s = .next { s with err := 1 })

/-- 41_transport.md R124. -/
def Obligations.PowerDownSendsTheSleepFrame : Prop :=
  encode .pwrdn = ⟨.host, [0x05]⟩ ∧
  ∀ s : State,
    (s.inited = true → ∃ b : Bus,
      exec .pwrdn s = .next { s with bus := b, err := 0 } ∧
      b.trace = s.bus.trace ++ FrameShape.pwrdn.events s.params ∧ b.draws = s.bus.draws) ∧
    (s.inited = false → BlockIdle s → exec .pwrdn s = .next { s with err := 1 })

/-- 41_transport.md R125: `RB` takes the byte the environment returns; the read-back inside a sequence
leaves `RB` alone. -/
def Obligations.RegisterReadStoresTheReturnedByte : Prop :=
  (∀ a : RegAddr, encode (.rreg a) = ⟨.host, [0x06, a.setWidth 8]⟩) ∧
  (∀ (a : RegAddr) (s : State),
    (s.inited = true → ∃ (v : Byte) (b : Bus),
      exec (.rreg a) s = .next { s with rb := v, bus := b, err := 0 } ∧
      b.trace = s.bus.trace ++ (FrameShape.rreg a v).events s.params ∧
      ∀ w bytes polls later, s.bus.env = .script (w :: bytes) polls later →
        v = w ∧ b.env = .script bytes polls later ∧ b.draws = s.bus.draws) ∧
    (s.inited = false → BlockIdle s → exec (.rreg a) s = .next { s with err := 1 })) ∧
  ∀ (i : Instr) (op : Latch) (s t : State),
    sequenceOf i = some op → exec i s = .next t → t.rb = s.rb

/-- 41_transport.md R126. -/
def Obligations.BulkWriteSendsItsFourBytes : Prop :=
  (∀ v0 v1 v2 v3 : Byte, encode (.wreg4 v0 v1 v2 v3) = ⟨.host, [0x07, v0, v1, v2, v3]⟩) ∧
  ∀ (v0 v1 v2 v3 : Byte) (s : State),
    (s.inited = true → ∃ b : Bus,
      exec (.wreg4 v0 v1 v2 v3) s = .next { s with bus := b, err := 0 } ∧
      b.trace = s.bus.trace ++ (FrameShape.wreg4 v0 v1 v2 v3).events s.params ∧
      b.draws = s.bus.draws) ∧
    (s.inited = false → BlockIdle s → exec (.wreg4 v0 v1 v2 v3) s = .next { s with err := 1 })

/-- 41_transport.md R127, the host operation. -/
def Obligations.SingleWriteSendsAddressAndByte : Prop :=
  (∀ (a : RegAddr) (v : Byte), encode (.wreg1 a v) = ⟨.host, [0x08, a.setWidth 8, v]⟩) ∧
  ∀ (a : RegAddr) (v : Byte) (s : State),
    (s.inited = true → ∃ b : Bus,
      exec (.wreg1 a v) s = .next { s with bus := b, err := 0 } ∧
      b.trace = s.bus.trace ++ (FrameShape.wreg1 a v).events s.params ∧ b.draws = s.bus.draws) ∧
    (s.inited = false → BlockIdle s → exec (.wreg1 a v) s = .next { s with err := 1 })

/-- 41_transport.md R128: `SR` takes the decoded word; nothing is waited for or started. -/
def Obligations.DataReadDecodesThreeBytes : Prop :=
  encode .rdata = ⟨.host, [0x09]⟩ ∧
  ∀ s : State,
    (s.inited = true → ∃ (d : DataBytes) (b : Bus),
      exec .rdata s = .next { s with sr := d.sample, bus := b, err := 0 } ∧
      b.trace = s.bus.trace ++ (FrameShape.rdata d.b0 d.b1 d.b2).events s.params ∧
      ∀ e bytes polls later, s.bus.env = .script (DataBytes.bytes e ++ bytes) polls later →
        d = e ∧ b.env = .script bytes polls later ∧ b.draws = s.bus.draws) ∧
    (s.inited = false → BlockIdle s → exec .rdata s = .next { s with err := 1 })

/-! ## Lifecycle -/

/-- 44_lifecycle.md R200: initialised or not, `INIT` sends the held reset frame, then the four bytes
of `ENC(c)`, and sets `WARN`, `INITED`, `ERR`. -/
def Obligations.InitResetsConfiguresAndMarks : Prop :=
  (∀ c : Configuration, encode (.init c) = ⟨.host, 0x01 :: encodeConfiguration c⟩) ∧
  ∀ (c : Configuration) (s : State), ∃ b : Bus,
    exec (.init c) s =
      .next { s with bus := b, warn := !(s.params.capXfer && s.params.capDrdy), inited := true, err := 0 } ∧
    b.trace = s.bus.trace ++ resetEvents s.params ++
      (FrameShape.wreg4 (enc c).b0 (enc c).b1 (enc c).b2 (enc c).b3).events s.params ∧
    b.draws = s.bus.draws

/-- 44_lifecycle.md R201: `CONFIG` sends the four bytes of `ENC(c)`; it leaves `WARN` alone. -/
def Obligations.ConfigRewritesAllFourRegisters : Prop :=
  (∀ c : Configuration, encode (.config c) = ⟨.host, 0x02 :: encodeConfiguration c⟩) ∧
  ∀ (c : Configuration) (s : State),
    (s.inited = true → ∃ b : Bus,
      exec (.config c) s = .next { s with bus := b, err := 0 } ∧
      b.trace = s.bus.trace ++
        (FrameShape.wreg4 (enc c).b0 (enc c).b1 (enc c).b2 (enc c).b3).events s.params ∧
      b.draws = s.bus.draws) ∧
    (s.inited = false → BlockIdle s → exec (.config c) s = .next { s with err := 1 })

/-! ## The wire commands -/

/-- The six wire commands of 30_encoding.md R72, each run on its own: it appends its frame of
41_transport.md R132 and changes no register, `ERR` included. That a wire row runs on its own, without
the host wrapper, is the model's choice (log 8, log 20). -/
def Obligations.WireCommandsEmitTheirFrames : Prop :=
  ∀ s : State,
    (∃ b, exec .wReset s = .next { s with bus := b } ∧ b.trace = s.bus.trace ++ resetEvents s.params) ∧
    (∃ b, exec .wStart s = .next { s with bus := b } ∧
      b.trace = s.bus.trace ++ FrameShape.start.events s.params) ∧
    (∃ b, exec .wPwrdn s = .next { s with bus := b } ∧
      b.trace = s.bus.trace ++ FrameShape.pwrdn.events s.params) ∧
    (∀ a, ∃ v b, exec (.wRreg a) s = .next { s with bus := b } ∧
      b.trace = s.bus.trace ++ (FrameShape.rreg a v).events s.params ∧
      ∀ w bytes polls later, s.bus.env = .script (w :: bytes) polls later → v = w) ∧
    (∀ v0 v1 v2 v3, ∃ b, exec (.wWreg4 v0 v1 v2 v3) s = .next { s with bus := b } ∧
      b.trace = s.bus.trace ++ (FrameShape.wreg4 v0 v1 v2 v3).events s.params) ∧
    ∀ a v, ∃ b, exec (.wWreg1 a v) s = .next { s with bus := b } ∧
      b.trace = s.bus.trace ++ (FrameShape.wreg1 a v).events s.params

/-! ## The sequences, whatever the waits take

`d0` to `d3` are the bytes of the data reads in order; `w` and `n0` to `n3` say how often the wake and
each channel's wait are answered "converting" before they are answered "ready", always below the limit;
`v0` to `v3` in the traces are the channels' register-0 values of 43_sequencer.md R165. The operation
itself goes as far as the first "converting" answer, each step after it as far as the next (log 9), so
with no such answer it is complete at once. Every parameter is free but the capabilities the operation
needs. -/

/-- 43_sequencer.md R175 (with R164, R166, R168 to R170, R172, R173). -/
def Obligations.DifferentialSingleShotSequenceCompletes : Prop :=
  ∀ (ovm : BitVec 2) (g0 g1 : GainCode) (s : State) (orig : Byte) (d0 d1 : DataBytes)
    (w n0 n1 : Nat) (bytes : List Byte) (polls : List Bool) (later : Option Bool),
    s.inited = true → s.params.capDrdy = true →
    (s.params.wake = true → BelowLimit s.params w) →
    BelowLimit s.params n0 → BelowLimit s.params n1 →
    let waits := wakePolls s.params w ++ waitPolls n0 ++ waitPolls n1
    s.bus.env = .script (orig :: (d0.bytes ++ d1.bytes ++ bytes)) (waits ++ polls) later →
    let op := latchDiff .ss ovm g0 g1
    let v0 := chanVal s.params .diff 0 op.ovr0 orig
    let v1 := chanVal s.params .diff 1 op.ovr1 orig
    ∃ t, exec (.rdallDSs ovm g0 g1) s = .next t ∧ runSteps (waits.count true) t = .next { s with
      sr := d1.sample, ch := { s.ch with ch0 := d0.sample, ch1 := d1.sample }, nvalid := 2
      orig := orig, r0s := orig, pcnt := n1, err := 0, phase := .idle, k := 0, latch := none
      waiting := false
      bus := {
        trace := s.bus.trace ++ openingEvents s.params w orig ++
          configureEvents s.params v0 orig ++ plainRead s.params n0 d0 ++
          configureEvents s.params v1 v0 ++ plainRead s.params n1 d1 ++
          (FrameShape.wreg1 0 orig).events s.params
        env := .script bytes polls later
        draws := s.bus.draws } }

/-- 43_sequencer.md R176 (with R164, R166, R168, R169, R171 to R173). -/
def Obligations.DifferentialContinuousSequenceCompletes : Prop :=
  ∀ (ovm : BitVec 2) (g0 g1 : GainCode) (s : State) (orig : Byte) (d0 d1 : DataBytes)
    (w n0 n1 : Nat) (bytes : List Byte) (polls : List Bool) (later : Option Bool),
    s.inited = true → s.params.capDrdy = true → s.params.capXfer = true →
    (s.params.wake = true → BelowLimit s.params w) →
    BelowLimit s.params n0 → BelowLimit s.params n1 →
    let waits := wakePolls s.params w ++ waitPolls n0 ++ waitPolls n1
    s.bus.env = .script (orig :: (d0.bytes ++ d1.bytes ++ bytes)) (waits ++ polls) later →
    let op := latchDiff .cc ovm g0 g1
    let v0 := chanVal s.params .diff 0 op.ovr0 orig
    let v1 := chanVal s.params .diff 1 op.ovr1 orig
    ∃ t, exec (.rdallDCc ovm g0 g1) s = .next t ∧ runSteps (waits.count true) t = .next { s with
      sr := d1.sample, ch := { s.ch with ch0 := d0.sample, ch1 := d1.sample }, nvalid := 2
      orig := orig, r0s := orig, pcnt := n1, err := 0, phase := .idle, k := 0, latch := none
      waiting := false
      bus := {
        trace := s.bus.trace ++ openingEvents s.params w orig ++
          configureEvents s.params v0 orig ++ burstRead s.params n0 v1 d0 ++
          burstRead s.params n1 orig d1
        env := .script bytes polls later
        draws := s.bus.draws } }

/-- 43_sequencer.md R177 (with R164, R166, R168 to R170, R172, R173); the gain check passes when it
is off or no override is above 2 (R163). -/
def Obligations.SingleEndedSingleShotSequenceCompletes : Prop :=
  ∀ (ovm : BitVec 4) (g0 g1 g2 g3 : GainCode) (s : State) (orig : Byte) (d0 d1 d2 d3 : DataBytes)
    (w n0 n1 n2 n3 : Nat) (bytes : List Byte) (polls : List Bool) (later : Option Bool),
    s.inited = true → s.params.capDrdy = true →
    (s.params.checkGain = true → ∀ k g, (latchSe .ss ovm g0 g1 g2 g3).ovr k = some g → g.toNat ≤ 2) →
    (s.params.wake = true → BelowLimit s.params w) →
    BelowLimit s.params n0 → BelowLimit s.params n1 → BelowLimit s.params n2 → BelowLimit s.params n3 →
    let waits := wakePolls s.params w ++ waitPolls n0 ++ waitPolls n1 ++ waitPolls n2 ++ waitPolls n3
    s.bus.env = .script (orig :: (d0.bytes ++ d1.bytes ++ d2.bytes ++ d3.bytes ++ bytes)) (waits ++ polls) later →
    let op := latchSe .ss ovm g0 g1 g2 g3
    let v0 := chanVal s.params .se 0 op.ovr0 orig
    let v1 := chanVal s.params .se 1 op.ovr1 orig
    let v2 := chanVal s.params .se 2 op.ovr2 orig
    let v3 := chanVal s.params .se 3 op.ovr3 orig
    ∃ t, exec (.rdallSSs ovm g0 g1 g2 g3) s = .next t ∧ runSteps (waits.count true) t = .next { s with
      sr := d3.sample, ch := ⟨d0.sample, d1.sample, d2.sample, d3.sample⟩, nvalid := 4
      orig := orig, r0s := orig, pcnt := n3, err := 0, phase := .idle, k := 0, latch := none
      waiting := false
      bus := {
        trace := s.bus.trace ++ openingEvents s.params w orig ++
          configureEvents s.params v0 orig ++ plainRead s.params n0 d0 ++
          configureEvents s.params v1 v0 ++ plainRead s.params n1 d1 ++
          configureEvents s.params v2 v1 ++ plainRead s.params n2 d2 ++
          configureEvents s.params v3 v2 ++ plainRead s.params n3 d3 ++
          (FrameShape.wreg1 0 orig).events s.params
        env := .script bytes polls later
        draws := s.bus.draws } }

/-- 43_sequencer.md R178 (with R164, R166, R168, R169, R171 to R173); the gain check as for R177. -/
def Obligations.SingleEndedContinuousSequenceCompletes : Prop :=
  ∀ (ovm : BitVec 4) (g0 g1 g2 g3 : GainCode) (s : State) (orig : Byte) (d0 d1 d2 d3 : DataBytes)
    (w n0 n1 n2 n3 : Nat) (bytes : List Byte) (polls : List Bool) (later : Option Bool),
    s.inited = true → s.params.capDrdy = true → s.params.capXfer = true →
    (s.params.checkGain = true → ∀ k g, (latchSe .cc ovm g0 g1 g2 g3).ovr k = some g → g.toNat ≤ 2) →
    (s.params.wake = true → BelowLimit s.params w) →
    BelowLimit s.params n0 → BelowLimit s.params n1 → BelowLimit s.params n2 → BelowLimit s.params n3 →
    let waits := wakePolls s.params w ++ waitPolls n0 ++ waitPolls n1 ++ waitPolls n2 ++ waitPolls n3
    s.bus.env = .script (orig :: (d0.bytes ++ d1.bytes ++ d2.bytes ++ d3.bytes ++ bytes)) (waits ++ polls) later →
    let op := latchSe .cc ovm g0 g1 g2 g3
    let v0 := chanVal s.params .se 0 op.ovr0 orig
    let v1 := chanVal s.params .se 1 op.ovr1 orig
    let v2 := chanVal s.params .se 2 op.ovr2 orig
    let v3 := chanVal s.params .se 3 op.ovr3 orig
    ∃ t, exec (.rdallSCc ovm g0 g1 g2 g3) s = .next t ∧ runSteps (waits.count true) t = .next { s with
      sr := d3.sample, ch := ⟨d0.sample, d1.sample, d2.sample, d3.sample⟩, nvalid := 4
      orig := orig, r0s := orig, pcnt := n3, err := 0, phase := .idle, k := 0, latch := none
      waiting := false
      bus := {
        trace := s.bus.trace ++ openingEvents s.params w orig ++
          configureEvents s.params v0 orig ++ burstRead s.params n0 v1 d0 ++
          burstRead s.params n1 v2 d1 ++ burstRead s.params n2 v3 d2 ++ burstRead s.params n3 orig d3
        env := .script bytes polls later
        draws := s.bus.draws } }

/-- 43_sequencer.md R182: the number of frames of a completed sequence whose waits are all answered at
once: one read-back, `W` start/syncs of the wake, one Configuring frame per channel (single-shot) or
one in all (continuous), one data frame per channel, one restore (single-shot only); and one poll per
wait. -/
def Obligations.CompletedSequenceFrameCounts : Prop :=
  ∀ (i : Instr) (op : Latch) (s t : State) (bytes : List Byte),
    sequenceOf i = some op →
    s.bus.env = .script bytes [] (some false) → exec i s = .next t → t.phase = .idle → t.err = 0 →
    let w := if s.params.wake then 1 else 0
    frameCount t.bus.trace = frameCount s.bus.trace + 1 + w + channelFrames op ∧
    pollCount t.bus.trace = pollCount s.bus.trace + w + op.top.channels

/-- 43_sequencer.md R170, R171, at every step of a sequence, however it ends (in a wait, in completion,
in a timeout) and whatever the environment: each channel read since is the decode of its data read on
the bus, `SR` of the last, and the other channel registers keep their values. -/
def Obligations.SequenceStepsStoreWhatTheyRead : Prop :=
  (∀ (i : Instr) (op : Latch) (s t : State), sequenceOf i = some op → BlockIdle s →
    entryError s op = none → exec i s = .next t → ∃ reads, ReadsStored s t 0 reads) ∧
  ∀ (op : Latch) (s t : State), SequenceInv s op → step s = .next t →
    ∃ reads, ReadsStored s t s.nvalid.val reads

/-- 43_sequencer.md R181, whatever the environment and however long the waits: a sequence that
completes has made exactly `N` data reads, and `CH[k]` is the decode of the `k`-th. -/
def Obligations.CompletedSequenceDecodesItsReads : Prop :=
  ∀ (i : Instr) (op : Latch) (s t u : State) (n : Nat),
    sequenceOf i = some op → BlockIdle s → s.pending = [] →
    exec i s = .next t → runSteps n t = .next u → u.phase = .idle → u.err = 0 →
    ∃ reads, reads.length = op.top.channels ∧ ReadsStored s u 0 reads

/-! ## Errors -/

/-- 60_exceptions.md R211: every host operation but `INIT`, on a handle that is not initialised,
produces no bus event and changes no register but `ERR`. -/
def Obligations.UninitializedHandleFailsFast : Prop :=
  ∀ (i : Instr) (s : State), i.space = .host → isInit i = false → BlockIdle s → s.inited = false →
    exec i s = .next { s with err := 1 }

/-- 43_sequencer.md R162: a sequence whose capability is missing changes nothing but `ERR`, to 2,
whatever its gains (60_exceptions.md R218). -/
def Obligations.MissingCapabilityRefusesTheSequence : Prop :=
  ∀ (i : Instr) (op : Latch) (s : State), sequenceOf i = some op → BlockIdle s → s.inited = true →
    (s.params.capDrdy = false ∨ (op.mode = .cc ∧ s.params.capXfer = false)) →
    exec i s = .next { s with err := 2 }

/-- 43_sequencer.md R163: with the check on, a single-ended sequence with a requested gain code above
2 changes nothing but `ERR`, to 4; with the check off, or for a differential one, or when no requested
code is above 2, no sequence raises that error. -/
def Obligations.InvalidGainRefusesTheSequence : Prop :=
  ∀ (i : Instr) (op : Latch) (s : State), sequenceOf i = some op → BlockIdle s → s.inited = true →
    s.params.capDrdy = true → (op.mode = .cc → s.params.capXfer = true) →
    let asked := s.params.checkGain = true ∧ op.top = .se ∧ ∃ k g, op.ovr k = some g ∧ g.toNat > 2
    (asked → exec i s = .next { s with err := 4 }) ∧
    (¬ asked → s.err ≠ 4 → ∃ t, exec i s = .next t ∧ t.err ≠ 4)

/-- 10_state.md R19: `ERR` is the outcome of the last operation and not sticky: what it was before has
no influence on a host operation that ends. -/
def Obligations.ErrorCodeIsNotSticky : Prop :=
  ∀ (i : Instr) (s t : State) (e : BitVec 3), i.space = .host → BlockIdle s →
    exec i { s with err := e } = .next t → t.phase = .idle → exec i s = .next t

/-- 41_transport.md R130, a poll answered "converting" below the limit: one event, `PCNT` counts, and
the sequence stays where it is. -/
def Obligations.ConvertingAnswerCountsAndWaits : Prop :=
  ∀ (s : State) (op : Latch) (bytes : List Byte) (polls : List Bool) (later : Option Bool),
    SequenceInv s op → s.bus.env = .script bytes (true :: polls) later →
    (∀ limit, s.params.pollLimit = some limit → s.pcnt + 1 < limit) →
    step s = .next { s with
      pcnt := s.pcnt + 1
      bus := { s.bus with trace := s.bus.trace ++ [.poll true], env := .script bytes polls later } }

/-- 43_sequencer.md R183: the poll that reaches the limit ends the sequence at once: no further event,
no restore, `ERR` 3, `(PHASE, K)` back to `(IDLE, 0)`, every result register as it was. -/
def Obligations.TimeoutAbortsWithoutRestoring : Prop :=
  ∀ (s : State) (op : Latch) (limit : Nat) (bytes : List Byte) (polls : List Bool)
    (later : Option Bool),
    SequenceInv s op → s.bus.env = .script bytes (true :: polls) later →
    s.params.pollLimit = some limit → limit ≤ s.pcnt + 1 →
    step s = .next { s with
      pcnt := s.pcnt + 1, err := 3, phase := .idle, k := 0, latch := none, waiting := false
      bus := { s.bus with trace := s.bus.trace ++ [.poll true], env := .script bytes polls later } }

/-- 60_exceptions.md R213: with `L` polls as the bound and a device that always answers "converting",
the first wait of a sequence raises after exactly `L` polls, with no channel read. -/
def Obligations.NeverReadyTimesOutAfterExactlyTheLimit : Prop :=
  ∀ (i : Instr) (op : Latch) (s : State) (bytes : List Byte) (limit : Nat),
    sequenceOf i = some op → BlockIdle s → entryError s op = none →
    s.params.pollLimit = some limit → 1 ≤ limit → s.bus.env = .script bytes [] (some true) →
    ∃ t u, exec i s = .next t ∧ runSteps (limit - 1) t = .next u ∧ u.phase = .idle ∧ u.err = 3 ∧
      u.nvalid = 0 ∧ u.pcnt = limit ∧ u.ch = s.ch ∧ u.sr = s.sr ∧
      pollCount u.bus.trace = pollCount s.bus.trace + limit

/-- 60_exceptions.md R216: without a limit and with a device that never becomes ready, a waiting
sequence polls for ever: after any number of steps the block is in the same phase of the same channel,
has written no register but `PCNT`, and has only polled. -/
def Obligations.UnboundedWaitPollsForever : Prop :=
  ∀ (s : State) (op : Latch) (bytes : List Byte) (n : Nat),
    SequenceInv s op → s.params.pollLimit = none → s.bus.env = .script bytes [] (some true) →
    runSteps n s = .next { s with
      pcnt := s.pcnt + n
      bus := { s.bus with trace := s.bus.trace ++ List.replicate n (.poll true) } }

/-- 70_reset_and_hazards.md R252: with `P.POLL_LIMIT = some L` every running sequence ends, whatever
the environment answers: five waits of at most `L` polls each. That the polls are counted in steps
rests on the model's step, which goes as far as the next poll answered "converting" (log 9). -/
def Obligations.LimitedWaitsEndEverySequence : Prop :=
  ∀ (s : State) (limit : Nat), Inv s → s.params.pollLimit = some limit →
    ∃ n t, n ≤ 5 * limit ∧ runSteps n s = .next t ∧ t.phase = .idle

/-! ## The machine as a whole -/

/-- 10_state.md R28: what the reset of the block leaves, for every instance and environment. -/
def Obligations.ResetLeavesTheSpecifiedValues : Prop :=
  ∀ (p : Params) (e : Environment),
    let s := State.resetWith p e
    s.inited = false ∧ s.err = 0 ∧ s.warn = false ∧ s.nvalid = 0 ∧ s.phase = .idle ∧ s.k = 0 ∧
      s.bus.trace = []

/-- The invariant holds after reset, for every instance and environment, `State.reset` among them. -/
def Obligations.InvariantHoldsAfterReset : Prop :=
  (∀ (p : Params) (e : Environment), Inv (State.resetWith p e)) ∧ Inv State.reset

/-- Every step keeps the invariant, from every state that has it. -/
def Obligations.EveryStepKeepsTheInvariant : Prop :=
  ∀ s t : State, Inv s → step s = .next t → Inv t

/-- 20_memory.md R46: the block never calls a capability that is not bound, nor stops otherwise. -/
def Obligations.NoStepCallsAnUnboundCapability : Prop :=
  ∀ s : State, Inv s → ∃ t, step s = .next t

/-- When the port's next request decodes, a step of the idle block is exec of that operation with the
request taken. -/
def Obligations.StepRunsTheDecodedOperation : Prop :=
  ∀ (s : State) (r : Request) (rest : List Request) (i : Instr),
    s.phase = .idle → s.pending = r :: rest → decode r = .ok i →
    step s = exec i { s with pending := rest }

/-- 30_encoding.md R89: a malformed request changes no register and produces no bus event; that the
port drops it and the block goes on is the model's reading (log 7). -/
def Obligations.MalformedRequestHasNoEffect : Prop :=
  ∀ (s : State) (r : Request) (rest : List Request) (e : DecodeError),
    s.phase = .idle → s.pending = r :: rest → decode r = .error e →
    step s = .next { s with pending := rest }

/-- 20_memory.md R55: while a sequence runs no request is taken, and what is presented has no
influence on it. That the queue is left as it is, is the model's: the queue is what the host will
present (log 6), and R55 puts holding or dropping a request outside the spec (log 17). -/
def Obligations.BusyBlockTakesNoRequest : Prop :=
  ∀ (s t : State) (queue : List Request), s.phase ≠ .idle → step s = .next t →
    t.pending = s.pending ∧ step { s with pending := queue } = .next { t with pending := queue }

/-- 10_state.md R15 and 00_scope.md R5: no step changes a parameter or clears `INITED`, and only
`INIT` sets it. -/
def Obligations.ParametersAndInitialisationPersist : Prop :=
  (∀ s t : State, step s = .next t → t.params = s.params ∧ (s.inited = true → t.inited = true)) ∧
  ∀ (i : Instr) (s t : State), isInit i = false → exec i s = .next t → t.inited = s.inited ∧ t.warn = s.warn

/-- 10_state.md R29: the registers a sequence does not write, at its acceptance and at every later
step: `RB`, `INITED`, `WARN`; a differential sequence leaves `CH[2]`, `CH[3]` alone (R12). -/
def Obligations.SequenceWritesOnlyItsRegisters : Prop :=
  (∀ (i : Instr) (op : Latch) (s t : State), sequenceOf i = some op → exec i s = .next t →
    t.rb = s.rb ∧ t.inited = s.inited ∧ t.warn = s.warn ∧
      (op.top = .diff → t.ch.ch2 = s.ch.ch2 ∧ t.ch.ch3 = s.ch.ch3)) ∧
  ∀ (op : Latch) (s t : State), SequenceInv s op → step s = .next t →
    t.rb = s.rb ∧ t.inited = s.inited ∧ t.warn = s.warn ∧ t.orig = s.orig ∧
      (op.top = .diff → t.ch.ch2 = s.ch.ch2 ∧ t.ch.ch3 = s.ch.ch3)

/-- 41_transport.md R132: from a trace made of whole frames, resets and polls every step leaves one:
no frame of another shape, none split, none left open. -/
def Obligations.EveryStepEmitsWholeFrames : Prop :=
  ∀ s t : State, step s = .next t → Framed s.params s.bus.trace → Framed t.params t.bus.trace

/-- 43_sequencer.md R173 and R180 (a), (b): when a running sequence completes, `NVALID` is the number
of channels, the channels read in this step are the decodes of their data reads (R181), `SR` is the
last channel's sample, `R0S` is `ORIG`, and the last frame on the bus wrote `ORIG` to register 0. -/
def Obligations.CompletedSequenceRestoresRegisterZero : Prop :=
  ∀ (s t : State) (op : Latch), SequenceInv s op → step s = .next t → t.phase = .idle → t.err = 0 →
    t.orig = s.orig ∧ t.r0s = t.orig ∧ t.nvalid.val = op.top.channels ∧
    (∃ j : Fin 4, j.val + 1 = op.top.channels ∧ t.sr = t.ch.read j) ∧
    (∃ reads, s.k.val + reads.length = op.top.channels ∧ ReadsStored s t s.k.val reads) ∧
    ∃ before : List Event,
      (op.mode = .ss → t.bus.trace = before ++ (FrameShape.wreg1 0 t.orig).events t.params) ∧
      (op.mode = .cc → ∃ b0 b1 b2,
        t.bus.trace = before ++ (FrameShape.xrdwr t.orig b0 b1 b2).events t.params)

/-- 43_sequencer.md R180 under the reference environment of 20_memory.md R58: a sequence that
completes, however long its waits, leaves all four device registers as they were. -/
def Obligations.ReferenceDeviceRegistersAreRestored : Prop :=
  ∀ (i : Instr) (op : Latch) (s t u : State) (regs : DeviceRegs) (n : Nat),
    sequenceOf i = some op → BlockIdle s → s.pending = [] → ReferenceAt s regs →
    exec i s = .next t → runSteps n t = .next u → u.phase = .idle → u.err = 0 → ReferenceAt u regs

/-- 10_state.md R17 under the reference environment: while a sequence runs, device
register 0 holds what `R0S` says, and registers 1 to 3 keep their values, timeouts included
(R183, R184). -/
def Obligations.ResidentValueMatchesTheReferenceDevice : Prop :=
  ∀ (s t : State) (op : Latch) (regs : DeviceRegs),
    SequenceInv s op → ReferenceAt s regs → regs.reg0 = s.r0s → step s = .next t →
    ReferenceAt t { regs with reg0 := t.r0s }

/-- 20_memory.md R58: what each host operation does to the device registers of the reference
environment, and which conversion word a data read takes. -/
def Obligations.ReferenceDeviceTakesTheWrites : Prop :=
  ∀ (s : State) (regs : DeviceRegs), s.inited = true → ReferenceAt s regs →
    (∃ t, exec .reset s = .next t ∧ ReferenceAt t ⟨0x00, 0x00, 0x00, 0x00⟩) ∧
    (∃ t, exec .start s = .next t ∧ ReferenceAt t regs) ∧
    (∃ t, exec .pwrdn s = .next t ∧ ReferenceAt t regs) ∧
    (∀ a, ∃ t, exec (.rreg a) s = .next t ∧ ReferenceAt t regs ∧ t.rb = regs.read a) ∧
    (∀ v0 v1 v2 v3, ∃ t, exec (.wreg4 v0 v1 v2 v3) s = .next t ∧ ReferenceAt t ⟨v0, v1, v2, v3⟩) ∧
    (∀ a v, ∃ t, exec (.wreg1 a v) s = .next t ∧ ReferenceAt t (regs.write a v)) ∧
    (∀ c, ∃ t, exec (.init c) s = .next t ∧
      ReferenceAt t ⟨(enc c).b0, (enc c).b1, (enc c).b2, (enc c).b3⟩) ∧
    (∀ c, ∃ t, exec (.config c) s = .next t ∧
      ReferenceAt t ⟨(enc c).b0, (enc c).b1, (enc c).b2, (enc c).b3⟩) ∧
    ∀ d w ws, s.bus.env = .reference d → d.words = w :: ws →
      ∃ t e, exec .rdata s = .next t ∧ ReferenceAt t regs ∧ t.sr = w.signExtend 32 ∧
        t.bus.env = .reference e ∧ e.words = ws

/-- 20_memory.md R58: under the reference environment a register read returns the last value written
to that register, and the other registers keep theirs. -/
def Obligations.ReferenceReadReturnsTheLastWrite : Prop :=
  ∀ (s : State) (regs : DeviceRegs) (a b : RegAddr) (v : Byte),
    s.inited = true → ReferenceAt s regs →
    ∃ t u, exec (.wreg1 a v) s = .next t ∧ exec (.rreg b) t = .next u ∧
      u.rb = (if b = a then v else regs.read b)

/-- 43_sequencer.md R185 (a): data bytes received never steer a running sequence: two states that
differ in data only take the same step, and stay so. -/
def Obligations.DataBytesNeverSteerTheSequence : Prop :=
  ∀ (s s' t : State) (op : Latch), SequenceInv s op → SameButData s s' → step s = .next t →
    ∃ t', step s' = .next t' ∧ SameButData t t'
end

