-- ==== Sys2Proof/Laws/State.lean ====
section
/-! SUPPORT. One lemma per field per named update of State, so that no proof unfolds a record update;
and the two updates whose fields depend on the channel, `advance` and `configure`. -/

namespace Sys2Proof.Machine

/-! ## `park` -/

@[simp] theorem State.park_params (s : State) : (s.park).params = s.params := rfl
@[simp] theorem State.park_sr (s : State) : (s.park).sr = s.sr := rfl
@[simp] theorem State.park_ch (s : State) : (s.park).ch = s.ch := rfl
@[simp] theorem State.park_nvalid (s : State) : (s.park).nvalid = s.nvalid := rfl
@[simp] theorem State.park_rb (s : State) : (s.park).rb = s.rb := rfl
@[simp] theorem State.park_inited (s : State) : (s.park).inited = s.inited := rfl
@[simp] theorem State.park_err (s : State) : (s.park).err = s.err := rfl
@[simp] theorem State.park_warn (s : State) : (s.park).warn = s.warn := rfl
@[simp] theorem State.park_orig (s : State) : (s.park).orig = s.orig := rfl
@[simp] theorem State.park_r0s (s : State) : (s.park).r0s = s.r0s := rfl
@[simp] theorem State.park_pcnt (s : State) : (s.park).pcnt = s.pcnt := rfl
@[simp] theorem State.park_phase (s : State) : (s.park).phase = .idle := rfl
@[simp] theorem State.park_k (s : State) : (s.park).k = 0 := rfl
@[simp] theorem State.park_latch (s : State) : (s.park).latch = none := rfl
@[simp] theorem State.park_waiting (s : State) : (s.park).waiting = false := rfl
@[simp] theorem State.park_bus (s : State) : (s.park).bus = s.bus := rfl
@[simp] theorem State.park_pending (s : State) : (s.park).pending = s.pending := rfl

/-! ## `succeed` -/

@[simp] theorem State.succeed_params (s : State) : (s.succeed).params = s.params := rfl
@[simp] theorem State.succeed_sr (s : State) : (s.succeed).sr = s.sr := rfl
@[simp] theorem State.succeed_ch (s : State) : (s.succeed).ch = s.ch := rfl
@[simp] theorem State.succeed_nvalid (s : State) : (s.succeed).nvalid = s.nvalid := rfl
@[simp] theorem State.succeed_rb (s : State) : (s.succeed).rb = s.rb := rfl
@[simp] theorem State.succeed_inited (s : State) : (s.succeed).inited = s.inited := rfl
@[simp] theorem State.succeed_err (s : State) : (s.succeed).err = 0 := rfl
@[simp] theorem State.succeed_warn (s : State) : (s.succeed).warn = s.warn := rfl
@[simp] theorem State.succeed_orig (s : State) : (s.succeed).orig = s.orig := rfl
@[simp] theorem State.succeed_r0s (s : State) : (s.succeed).r0s = s.r0s := rfl
@[simp] theorem State.succeed_pcnt (s : State) : (s.succeed).pcnt = s.pcnt := rfl
@[simp] theorem State.succeed_phase (s : State) : (s.succeed).phase = s.phase := rfl
@[simp] theorem State.succeed_k (s : State) : (s.succeed).k = s.k := rfl
@[simp] theorem State.succeed_latch (s : State) : (s.succeed).latch = s.latch := rfl
@[simp] theorem State.succeed_waiting (s : State) : (s.succeed).waiting = s.waiting := rfl
@[simp] theorem State.succeed_bus (s : State) : (s.succeed).bus = s.bus := rfl
@[simp] theorem State.succeed_pending (s : State) : (s.succeed).pending = s.pending := rfl

/-! ## `complete` -/

@[simp] theorem State.complete_params (s : State) : (s.complete).params = s.params := rfl
@[simp] theorem State.complete_sr (s : State) : (s.complete).sr = s.sr := rfl
@[simp] theorem State.complete_ch (s : State) : (s.complete).ch = s.ch := rfl
@[simp] theorem State.complete_nvalid (s : State) : (s.complete).nvalid = s.nvalid := rfl
@[simp] theorem State.complete_rb (s : State) : (s.complete).rb = s.rb := rfl
@[simp] theorem State.complete_inited (s : State) : (s.complete).inited = s.inited := rfl
@[simp] theorem State.complete_err (s : State) : (s.complete).err = 0 := rfl
@[simp] theorem State.complete_warn (s : State) : (s.complete).warn = s.warn := rfl
@[simp] theorem State.complete_orig (s : State) : (s.complete).orig = s.orig := rfl
@[simp] theorem State.complete_r0s (s : State) : (s.complete).r0s = s.r0s := rfl
@[simp] theorem State.complete_pcnt (s : State) : (s.complete).pcnt = s.pcnt := rfl
@[simp] theorem State.complete_phase (s : State) : (s.complete).phase = .idle := rfl
@[simp] theorem State.complete_k (s : State) : (s.complete).k = 0 := rfl
@[simp] theorem State.complete_latch (s : State) : (s.complete).latch = none := rfl
@[simp] theorem State.complete_waiting (s : State) : (s.complete).waiting = false := rfl
@[simp] theorem State.complete_bus (s : State) : (s.complete).bus = s.bus := rfl
@[simp] theorem State.complete_pending (s : State) : (s.complete).pending = s.pending := rfl

/-! ## `raise` -/

@[simp] theorem State.raise_params (s : State) (e : Error) : (s.raise e).params = s.params := rfl
@[simp] theorem State.raise_sr (s : State) (e : Error) : (s.raise e).sr = s.sr := rfl
@[simp] theorem State.raise_ch (s : State) (e : Error) : (s.raise e).ch = s.ch := rfl
@[simp] theorem State.raise_nvalid (s : State) (e : Error) : (s.raise e).nvalid = s.nvalid := rfl
@[simp] theorem State.raise_rb (s : State) (e : Error) : (s.raise e).rb = s.rb := rfl
@[simp] theorem State.raise_inited (s : State) (e : Error) : (s.raise e).inited = s.inited := rfl
@[simp] theorem State.raise_err (s : State) (e : Error) : (s.raise e).err = e.code := rfl
@[simp] theorem State.raise_warn (s : State) (e : Error) : (s.raise e).warn = s.warn := rfl
@[simp] theorem State.raise_orig (s : State) (e : Error) : (s.raise e).orig = s.orig := rfl
@[simp] theorem State.raise_r0s (s : State) (e : Error) : (s.raise e).r0s = s.r0s := rfl
@[simp] theorem State.raise_pcnt (s : State) (e : Error) : (s.raise e).pcnt = s.pcnt := rfl
@[simp] theorem State.raise_phase (s : State) (e : Error) : (s.raise e).phase = .idle := rfl
@[simp] theorem State.raise_k (s : State) (e : Error) : (s.raise e).k = 0 := rfl
@[simp] theorem State.raise_latch (s : State) (e : Error) : (s.raise e).latch = none := rfl
@[simp] theorem State.raise_waiting (s : State) (e : Error) : (s.raise e).waiting = false := rfl
@[simp] theorem State.raise_bus (s : State) (e : Error) : (s.raise e).bus = s.bus := rfl
@[simp] theorem State.raise_pending (s : State) (e : Error) : (s.raise e).pending = s.pending := rfl

/-! ## `accept` -/

@[simp] theorem State.accept_params (s : State) (op : Latch) : (s.accept op).params = s.params := rfl
@[simp] theorem State.accept_sr (s : State) (op : Latch) : (s.accept op).sr = s.sr := rfl
@[simp] theorem State.accept_ch (s : State) (op : Latch) : (s.accept op).ch = s.ch := rfl
@[simp] theorem State.accept_nvalid (s : State) (op : Latch) : (s.accept op).nvalid = s.nvalid := rfl
@[simp] theorem State.accept_rb (s : State) (op : Latch) : (s.accept op).rb = s.rb := rfl
@[simp] theorem State.accept_inited (s : State) (op : Latch) : (s.accept op).inited = s.inited := rfl
@[simp] theorem State.accept_err (s : State) (op : Latch) : (s.accept op).err = s.err := rfl
@[simp] theorem State.accept_warn (s : State) (op : Latch) : (s.accept op).warn = s.warn := rfl
@[simp] theorem State.accept_orig (s : State) (op : Latch) : (s.accept op).orig = s.orig := rfl
@[simp] theorem State.accept_r0s (s : State) (op : Latch) : (s.accept op).r0s = s.r0s := rfl
@[simp] theorem State.accept_pcnt (s : State) (op : Latch) : (s.accept op).pcnt = s.pcnt := rfl
@[simp] theorem State.accept_phase (s : State) (op : Latch) : (s.accept op).phase = .entry := rfl
@[simp] theorem State.accept_k (s : State) (op : Latch) : (s.accept op).k = 0 := rfl
@[simp] theorem State.accept_latch (s : State) (op : Latch) : (s.accept op).latch = some op := rfl
@[simp] theorem State.accept_waiting (s : State) (op : Latch) : (s.accept op).waiting = false := rfl
@[simp] theorem State.accept_bus (s : State) (op : Latch) : (s.accept op).bus = s.bus := rfl
@[simp] theorem State.accept_pending (s : State) (op : Latch) : (s.accept op).pending = s.pending := rfl

/-! ## `store` -/

@[simp] theorem State.store_params (s : State) (v : Sample) : (s.store v).params = s.params := rfl
@[simp] theorem State.store_sr (s : State) (v : Sample) : (s.store v).sr = v := rfl
@[simp] theorem State.store_ch (s : State) (v : Sample) : (s.store v).ch = s.ch.write s.k v := rfl
@[simp] theorem State.store_nvalid (s : State) (v : Sample) : (s.store v).nvalid = s.k.succ := rfl
@[simp] theorem State.store_rb (s : State) (v : Sample) : (s.store v).rb = s.rb := rfl
@[simp] theorem State.store_inited (s : State) (v : Sample) : (s.store v).inited = s.inited := rfl
@[simp] theorem State.store_err (s : State) (v : Sample) : (s.store v).err = s.err := rfl
@[simp] theorem State.store_warn (s : State) (v : Sample) : (s.store v).warn = s.warn := rfl
@[simp] theorem State.store_orig (s : State) (v : Sample) : (s.store v).orig = s.orig := rfl
@[simp] theorem State.store_r0s (s : State) (v : Sample) : (s.store v).r0s = s.r0s := rfl
@[simp] theorem State.store_pcnt (s : State) (v : Sample) : (s.store v).pcnt = s.pcnt := rfl
@[simp] theorem State.store_phase (s : State) (v : Sample) : (s.store v).phase = s.phase := rfl
@[simp] theorem State.store_k (s : State) (v : Sample) : (s.store v).k = s.k := rfl
@[simp] theorem State.store_latch (s : State) (v : Sample) : (s.store v).latch = s.latch := rfl
@[simp] theorem State.store_waiting (s : State) (v : Sample) : (s.store v).waiting = s.waiting := rfl
@[simp] theorem State.store_bus (s : State) (v : Sample) : (s.store v).bus = s.bus := rfl
@[simp] theorem State.store_pending (s : State) (v : Sample) : (s.store v).pending = s.pending := rfl

/-! ## `present` -/

@[simp] theorem State.present_params (s : State) (r : Request) : (s.present r).params = s.params := rfl
@[simp] theorem State.present_sr (s : State) (r : Request) : (s.present r).sr = s.sr := rfl
@[simp] theorem State.present_ch (s : State) (r : Request) : (s.present r).ch = s.ch := rfl
@[simp] theorem State.present_nvalid (s : State) (r : Request) : (s.present r).nvalid = s.nvalid := rfl
@[simp] theorem State.present_rb (s : State) (r : Request) : (s.present r).rb = s.rb := rfl
@[simp] theorem State.present_inited (s : State) (r : Request) : (s.present r).inited = s.inited := rfl
@[simp] theorem State.present_err (s : State) (r : Request) : (s.present r).err = s.err := rfl
@[simp] theorem State.present_warn (s : State) (r : Request) : (s.present r).warn = s.warn := rfl
@[simp] theorem State.present_orig (s : State) (r : Request) : (s.present r).orig = s.orig := rfl
@[simp] theorem State.present_r0s (s : State) (r : Request) : (s.present r).r0s = s.r0s := rfl
@[simp] theorem State.present_pcnt (s : State) (r : Request) : (s.present r).pcnt = s.pcnt := rfl
@[simp] theorem State.present_phase (s : State) (r : Request) : (s.present r).phase = .idle := rfl
@[simp] theorem State.present_k (s : State) (r : Request) : (s.present r).k = 0 := rfl
@[simp] theorem State.present_latch (s : State) (r : Request) : (s.present r).latch = none := rfl
@[simp] theorem State.present_waiting (s : State) (r : Request) : (s.present r).waiting = false := rfl
@[simp] theorem State.present_bus (s : State) (r : Request) : (s.present r).bus = s.bus := rfl
@[simp] theorem State.present_pending (s : State) (r : Request) : (s.present r).pending = r :: s.pending := rfl

/-! ## `resetWith` -/

@[simp] theorem State.resetWith_params (p : Params) (e : Environment) :
    (State.resetWith p e).params = p := rfl
@[simp] theorem State.resetWith_sr (p : Params) (e : Environment) :
    (State.resetWith p e).sr = Config.resetSr := rfl
@[simp] theorem State.resetWith_ch (p : Params) (e : Environment) :
    (State.resetWith p e).ch = ⟨Config.resetCh0, Config.resetCh1, Config.resetCh2, Config.resetCh3⟩ := rfl
@[simp] theorem State.resetWith_nvalid (p : Params) (e : Environment) :
    (State.resetWith p e).nvalid = 0 := rfl
@[simp] theorem State.resetWith_rb (p : Params) (e : Environment) :
    (State.resetWith p e).rb = Config.resetRb := rfl
@[simp] theorem State.resetWith_inited (p : Params) (e : Environment) :
    (State.resetWith p e).inited = false := rfl
@[simp] theorem State.resetWith_err (p : Params) (e : Environment) :
    (State.resetWith p e).err = 0 := rfl
@[simp] theorem State.resetWith_warn (p : Params) (e : Environment) :
    (State.resetWith p e).warn = false := rfl
@[simp] theorem State.resetWith_orig (p : Params) (e : Environment) :
    (State.resetWith p e).orig = Config.resetOrig := rfl
@[simp] theorem State.resetWith_r0s (p : Params) (e : Environment) :
    (State.resetWith p e).r0s = Config.resetR0s := rfl
@[simp] theorem State.resetWith_pcnt (p : Params) (e : Environment) :
    (State.resetWith p e).pcnt = Config.resetPcnt := rfl
@[simp] theorem State.resetWith_phase (p : Params) (e : Environment) :
    (State.resetWith p e).phase = .idle := rfl
@[simp] theorem State.resetWith_k (p : Params) (e : Environment) :
    (State.resetWith p e).k = 0 := rfl
@[simp] theorem State.resetWith_latch (p : Params) (e : Environment) :
    (State.resetWith p e).latch = none := rfl
@[simp] theorem State.resetWith_waiting (p : Params) (e : Environment) :
    (State.resetWith p e).waiting = false := rfl
@[simp] theorem State.resetWith_bus (p : Params) (e : Environment) :
    (State.resetWith p e).bus = { trace := [], env := e, draws := 0 } := rfl
@[simp] theorem State.resetWith_pending (p : Params) (e : Environment) :
    (State.resetWith p e).pending = [] := rfl

/-! ## `advance` and `configure` -/

@[simp] theorem State.advance_params (s : State) (op : Latch) : (s.advance op).params = s.params := by
  unfold State.advance; split <;> rfl
@[simp] theorem State.advance_sr (s : State) (op : Latch) : (s.advance op).sr = s.sr := by
  unfold State.advance; split <;> rfl
@[simp] theorem State.advance_ch (s : State) (op : Latch) : (s.advance op).ch = s.ch := by
  unfold State.advance; split <;> rfl
@[simp] theorem State.advance_nvalid (s : State) (op : Latch) : (s.advance op).nvalid = s.nvalid := by
  unfold State.advance; split <;> rfl
@[simp] theorem State.advance_rb (s : State) (op : Latch) : (s.advance op).rb = s.rb := by
  unfold State.advance; split <;> rfl
@[simp] theorem State.advance_inited (s : State) (op : Latch) : (s.advance op).inited = s.inited := by
  unfold State.advance; split <;> rfl
@[simp] theorem State.advance_err (s : State) (op : Latch) : (s.advance op).err = s.err := by
  unfold State.advance; split <;> rfl
@[simp] theorem State.advance_warn (s : State) (op : Latch) : (s.advance op).warn = s.warn := by
  unfold State.advance; split <;> rfl
@[simp] theorem State.advance_orig (s : State) (op : Latch) : (s.advance op).orig = s.orig := by
  unfold State.advance; split <;> rfl
@[simp] theorem State.advance_r0s (s : State) (op : Latch) : (s.advance op).r0s = s.r0s := by
  unfold State.advance; split <;> rfl
@[simp] theorem State.advance_pcnt (s : State) (op : Latch) : (s.advance op).pcnt = s.pcnt := by
  unfold State.advance; split <;> rfl
@[simp] theorem State.advance_latch (s : State) (op : Latch) : (s.advance op).latch = s.latch := by
  unfold State.advance; split <;> rfl
@[simp] theorem State.advance_waiting (s : State) (op : Latch) : (s.advance op).waiting = s.waiting := by
  unfold State.advance; split <;> rfl
@[simp] theorem State.advance_bus (s : State) (op : Latch) : (s.advance op).bus = s.bus := by
  unfold State.advance; split <;> rfl
@[simp] theorem State.advance_pending (s : State) (op : Latch) : (s.advance op).pending = s.pending := by
  unfold State.advance; split <;> rfl
@[simp] theorem configure_params (op : Latch) (s : State) : (configure op s).params = s.params := by
  unfold configure; simp only; split <;> [rfl; (split <;> rfl)]
@[simp] theorem configure_sr (op : Latch) (s : State) : (configure op s).sr = s.sr := by
  unfold configure; simp only; split <;> [rfl; (split <;> rfl)]
@[simp] theorem configure_ch (op : Latch) (s : State) : (configure op s).ch = s.ch := by
  unfold configure; simp only; split <;> [rfl; (split <;> rfl)]
@[simp] theorem configure_nvalid (op : Latch) (s : State) : (configure op s).nvalid = s.nvalid := by
  unfold configure; simp only; split <;> [rfl; (split <;> rfl)]
@[simp] theorem configure_rb (op : Latch) (s : State) : (configure op s).rb = s.rb := by
  unfold configure; simp only; split <;> [rfl; (split <;> rfl)]
@[simp] theorem configure_inited (op : Latch) (s : State) : (configure op s).inited = s.inited := by
  unfold configure; simp only; split <;> [rfl; (split <;> rfl)]
@[simp] theorem configure_err (op : Latch) (s : State) : (configure op s).err = s.err := by
  unfold configure; simp only; split <;> [rfl; (split <;> rfl)]
@[simp] theorem configure_warn (op : Latch) (s : State) : (configure op s).warn = s.warn := by
  unfold configure; simp only; split <;> [rfl; (split <;> rfl)]
@[simp] theorem configure_orig (op : Latch) (s : State) : (configure op s).orig = s.orig := by
  unfold configure; simp only; split <;> [rfl; (split <;> rfl)]
@[simp] theorem configure_pcnt (op : Latch) (s : State) : (configure op s).pcnt = s.pcnt := by
  unfold configure; simp only; split <;> [rfl; (split <;> rfl)]
@[simp] theorem configure_phase (op : Latch) (s : State) : (configure op s).phase = s.phase := by
  unfold configure; simp only; split <;> [rfl; (split <;> rfl)]
@[simp] theorem configure_k (op : Latch) (s : State) : (configure op s).k = s.k := by
  unfold configure; simp only; split <;> [rfl; (split <;> rfl)]
@[simp] theorem configure_latch (op : Latch) (s : State) : (configure op s).latch = s.latch := by
  unfold configure; simp only; split <;> [rfl; (split <;> rfl)]
@[simp] theorem configure_waiting (op : Latch) (s : State) : (configure op s).waiting = s.waiting := by
  unfold configure; simp only; split <;> [rfl; (split <;> rfl)]
@[simp] theorem configure_pending (op : Latch) (s : State) : (configure op s).pending = s.pending := by
  unfold configure; simp only; split <;> [rfl; (split <;> rfl)]

/-- After a channel that is not the last the next one is configured (43_sequencer.md R179). -/
theorem State.advance_of_more (s : State) (op : Latch) (h : s.k.val + 1 < op.top.channels) :
    s.advance op = { s with phase := .configuring, k := s.k + 1 } := by
  simp [State.advance, h]

/-- After the last channel the sequence restores (43_sequencer.md R179). -/
theorem State.advance_of_last (s : State) (op : Latch) (h : ¬ s.k.val + 1 < op.top.channels) :
    s.advance op = { s with phase := .restoring } := by
  simp [State.advance, h]

/-! ## The channel registers and the device registers -/

@[simp] theorem Channels.read_write_same (c : Channels) (k : Fin 4) (v : Sample) :
    (c.write k v).read k = v := by
  match k with
  | 0 => rfl
  | 1 => rfl
  | 2 => rfl
  | 3 => rfl

theorem Channels.read_write_other (c : Channels) (k j : Fin 4) (v : Sample) (h : j ≠ k) :
    (c.write k v).read j = c.read j := by
  revert h
  match k, j with
  | 0, 0 | 1, 1 | 2, 2 | 3, 3 => exact fun h => absurd rfl h
  | 0, 1 | 0, 2 | 0, 3 | 1, 0 | 1, 2 | 1, 3 | 2, 0 | 2, 1 | 2, 3 | 3, 0 | 3, 1 | 3, 2 => exact fun _ => rfl

theorem DeviceRegs.read_write (r : DeviceRegs) (a b : RegAddr) (v : Byte) :
    (r.write a v).read b = if b = a then v else r.read b := by
  have h : ∀ x : RegAddr, x = 0 ∨ x = 1 ∨ x = 2 ∨ x = 3 := by decide
  rcases h a with rfl | rfl | rfl | rfl <;> rcases h b with rfl | rfl | rfl | rfl <;> rfl

end Sys2Proof.Machine
end

