-- ==== Sys2Proof/Laws/Bus.lean ====
section
/-! SUPPORT. What each bus operation and each transport procedure can do: the events it appends
(41_transport.md rule R132), and what becomes of a scripted environment. -/

namespace Sys2Proof.Machine

open Sys2Proof.Safety

/-! ## The capabilities -/

@[simp] theorem Bus.emit_trace (b : Bus) (e : Event) : (b.emit e).trace = b.trace ++ [e] := rfl
@[simp] theorem Bus.emit_env (b : Bus) (e : Event) : (b.emit e).env = b.env := rfl
@[simp] theorem Bus.emit_draws (b : Bus) (e : Event) : (b.emit e).draws = b.draws := rfl
@[simp] theorem Bus.sel_trace (b : Bus) (v : Bool) : (b.sel v).trace = b.trace ++ [.select v] := rfl
@[simp] theorem Bus.sel_env (b : Bus) (v : Bool) : (b.sel v).env = b.env.select v := rfl
@[simp] theorem Bus.sel_draws (b : Bus) (v : Bool) : (b.sel v).draws = b.draws := rfl
@[simp] theorem Bus.dly_trace (b : Bus) (n : Nat) : (b.dly n).trace = b.trace ++ [.delay n] := rfl
@[simp] theorem Bus.dly_env (b : Bus) (n : Nat) : (b.dly n).env = b.env := rfl
@[simp] theorem Bus.dly_draws (b : Bus) (n : Nat) : (b.dly n).draws = b.draws := rfl
@[simp] theorem Bus.tx_trace (b : Bus) (v : Byte) : (b.tx v).trace = b.trace ++ [.tx v] := rfl
@[simp] theorem Bus.tx_env (b : Bus) (v : Byte) : (b.tx v).env = b.env.send v := rfl
@[simp] theorem Bus.tx_draws (b : Bus) (v : Byte) : (b.tx v).draws = b.draws := rfl

@[simp] theorem Bus.answer_trace {α : Type} (b : Bus) (a : Option α × Environment) (free : Nat → α) :
    (b.answer a free).2.trace = b.trace := by
  unfold Bus.answer; split <;> rfl

@[simp] theorem Bus.answer_env {α : Type} (b : Bus) (a : Option α × Environment) (free : Nat → α) :
    (b.answer a free).2.env = a.2 := by
  unfold Bus.answer; split <;> rfl

@[simp] theorem Bus.answer_some {α : Type} (b : Bus) (v : α) (e : Environment) (free : Nat → α) :
    b.answer (some v, e) free = (v, { b with env := e }) := rfl

@[simp] theorem Bus.answer_none {α : Type} (b : Bus) (e : Environment) (free : Nat → α) :
    b.answer (none, e) free = (free b.draws, { b with env := e, draws := b.draws + 1 }) := rfl

@[simp] theorem Bus.rx_trace (b : Bus) : b.rx.2.trace = b.trace ++ [.rx b.rx.1] := by
  simp [Bus.rx]

@[simp] theorem Bus.xfer_trace (b : Bus) (v : Byte) :
    (b.xfer v).2.trace = b.trace ++ [.xfer v (b.xfer v).1] := by
  simp [Bus.xfer]

@[simp] theorem Bus.poll_trace (b : Bus) : b.poll.2.trace = b.trace ++ [.poll b.poll.1] := by
  simp [Bus.poll]

/-! ## A scripted environment -/

@[simp] theorem Environment.select_script (bytes : List Byte) (polls : List Bool) (later : Option Bool)
    (v : Bool) : (Environment.script bytes polls later).select v = .script bytes polls later := rfl

@[simp] theorem Environment.send_script (bytes : List Byte) (polls : List Bool) (later : Option Bool)
    (v : Byte) : (Environment.script bytes polls later).send v = .script bytes polls later := rfl

/-- A scripted byte is received, and nothing else of the environment moves. -/
theorem Bus.rx_script (b : Bus) (v : Byte) (bytes : List Byte) (polls : List Bool)
    (later : Option Bool) (h : b.env = .script (v :: bytes) polls later) :
    b.rx = (v, ⟨b.trace ++ [.rx v], .script bytes polls later, b.draws⟩) := by
  simp [Bus.rx, h, Environment.receive, Bus.emit]

/-- A scripted byte is received by a combined transfer. -/
theorem Bus.xfer_script (b : Bus) (u v : Byte) (bytes : List Byte) (polls : List Bool)
    (later : Option Bool) (h : b.env = .script (v :: bytes) polls later) :
    b.xfer u = (v, ⟨b.trace ++ [.xfer u v], .script bytes polls later, b.draws⟩) := by
  simp [Bus.xfer, h, Environment.exchange, Bus.emit]

/-- A scripted poll answer. -/
theorem Bus.poll_script (b : Bus) (c : Bool) (bytes : List Byte) (polls : List Bool)
    (later : Option Bool) (h : b.env = .script bytes (c :: polls) later) :
    b.poll = (c, ⟨b.trace ++ [.poll c], .script bytes polls later, b.draws⟩) := by
  simp [Bus.poll, h, Environment.poll, Bus.emit]

/-- A poll after the scripted answers, where the later answers are fixed. -/
theorem Bus.poll_later (b : Bus) (c : Bool) (bytes : List Byte)
    (h : b.env = .script bytes [] (some c)) :
    b.poll = (c, ⟨b.trace ++ [.poll c], .script bytes [] (some c), b.draws⟩) := by
  simp [Bus.poll, h, Environment.poll, Bus.emit]

/-! ## Frames -/

@[simp] theorem Bus.send_trace (bytes : List Byte) (b : Bus) :
    (b.send bytes).trace = b.trace ++ bytes.map .tx := by
  induction bytes generalizing b with
  | nil => simp [Bus.send]
  | cons v vs ih => simp [Bus.send, ih]

@[simp] theorem Bus.send_draws (bytes : List Byte) (b : Bus) : (b.send bytes).draws = b.draws := by
  induction bytes generalizing b with
  | nil => rfl
  | cons v vs ih => simp [Bus.send, ih]

theorem Bus.send_env_script (bytes' : List Byte) (b : Bus) (bytes : List Byte) (polls : List Bool)
    (later : Option Bool) (h : b.env = .script bytes polls later) :
    (b.send bytes').env = .script bytes polls later := by
  induction bytes' generalizing b with
  | nil => exact h
  | cons v vs ih => exact ih _ (by simp [h])

/-- A frame that only transmits: one select frame with its two guard delays (41_transport.md R120). -/
theorem Bus.sendFrame_trace (b : Bus) (tCs : Nat) (bytes : List Byte) :
    (b.sendFrame tCs bytes).trace =
      b.trace ++ ([.select true, .delay tCs] ++ bytes.map .tx ++ [.delay tCs, .select false]) := by
  simp [Bus.sendFrame, Bus.frame]

@[simp] theorem Bus.sendFrame_draws (b : Bus) (tCs : Nat) (bytes : List Byte) :
    (b.sendFrame tCs bytes).draws = b.draws := by
  simp [Bus.sendFrame, Bus.frame]

theorem Bus.sendFrame_env_script (b : Bus) (tCs : Nat) (bytes' bytes : List Byte) (polls : List Bool)
    (later : Option Bool) (h : b.env = .script bytes polls later) :
    (b.sendFrame tCs bytes').env = .script bytes polls later := by
  simp [Bus.sendFrame, Bus.frame, Bus.send_env_script bytes' ((b.sel true).dly tCs) bytes polls later (by simp [h])]

/-- The command bytes are those of 30_encoding.md R72. -/
theorem readCommand_eq (a : RegAddr) : readCommand a = readCommandByte a := by
  revert a; decide

/-- The command bytes are those of 30_encoding.md R72. -/
theorem writeCommand_eq (a : RegAddr) : writeCommand a = writeCommandByte a := by
  revert a; decide

/-! ## The procedures -/

theorem Bus.resetDevice_trace (b : Bus) (p : Params) :
    (b.resetDevice p).trace = b.trace ++ resetEvents p := by
  simp [Bus.resetDevice, Bus.sendFrame_trace, resetEvents, FrameShape.events, FrameShape.data]

theorem Bus.startSync_trace (b : Bus) (p : Params) :
    (b.startSync p).trace = b.trace ++ FrameShape.start.events p := by
  simp [Bus.startSync, Bus.sendFrame_trace, FrameShape.events, FrameShape.data]

theorem Bus.powerDown_trace (b : Bus) (p : Params) :
    (b.powerDown p).trace = b.trace ++ FrameShape.pwrdn.events p := by
  simp [Bus.powerDown, Bus.sendFrame_trace, FrameShape.events, FrameShape.data]

theorem Bus.wreg4_trace (b : Bus) (p : Params) (v : RegBytes) :
    (b.wreg4 p v).trace = b.trace ++ (FrameShape.wreg4 v.b0 v.b1 v.b2 v.b3).events p := by
  simp [Bus.wreg4, Bus.sendFrame_trace, FrameShape.events, FrameShape.data]

theorem Bus.wreg1_trace (b : Bus) (p : Params) (a : RegAddr) (v : Byte) :
    (b.wreg1 p a v).trace = b.trace ++ (FrameShape.wreg1 a v).events p := by
  simp [Bus.wreg1, Bus.sendFrame_trace, FrameShape.events, FrameShape.data, writeCommand_eq]

theorem Bus.rreg_trace (b : Bus) (p : Params) (a : RegAddr) :
    (b.rreg p a).2.trace = b.trace ++ (FrameShape.rreg a (b.rreg p a).1).events p := by
  simp [Bus.rreg, Bus.frame, FrameShape.events, FrameShape.data, readCommand_eq]

theorem Bus.rdata_spec (b : Bus) (p : Params) : ∃ b0 b1 b2 : Byte,
    (b.rdata p).1 = sdec b0 b1 b2 ∧
      (b.rdata p).2.trace = b.trace ++ (FrameShape.rdata b0 b1 b2).events p := by
  refine ⟨_, _, _, rfl, ?_⟩
  simp [Bus.rdata, Bus.frame, FrameShape.events, FrameShape.data]

theorem Bus.xrdwr_spec (b : Bus) (p : Params) (v : Byte) : ∃ b0 b1 b2 : Byte,
    (b.xrdwr p v).1 = sdec b0 b1 b2 ∧
      (b.xrdwr p v).2.trace = b.trace ++ (FrameShape.xrdwr v b0 b1 b2).events p := by
  refine ⟨_, _, _, rfl, ?_⟩
  simp [Bus.xrdwr, Bus.frame, FrameShape.events, FrameShape.data]

theorem Bus.resetDevice_draws (b : Bus) (p : Params) : (b.resetDevice p).draws = b.draws := by
  simp [Bus.resetDevice]

theorem Bus.startSync_draws (b : Bus) (p : Params) : (b.startSync p).draws = b.draws := by
  simp [Bus.startSync]

theorem Bus.powerDown_draws (b : Bus) (p : Params) : (b.powerDown p).draws = b.draws := by
  simp [Bus.powerDown]

theorem Bus.wreg4_draws (b : Bus) (p : Params) (v : RegBytes) : (b.wreg4 p v).draws = b.draws := by
  simp [Bus.wreg4]

theorem Bus.wreg1_draws (b : Bus) (p : Params) (a : RegAddr) (v : Byte) :
    (b.wreg1 p a v).draws = b.draws := by
  simp [Bus.wreg1]

/-! ## The procedures in a scripted environment -/

theorem Bus.startSync_script (b : Bus) (p : Params) (bytes : List Byte) (polls : List Bool)
    (later : Option Bool) (h : b.env = .script bytes polls later) :
    b.startSync p =
      ⟨b.trace ++ FrameShape.start.events p, .script bytes polls later, b.draws⟩ := by
  rw [← b.startSync_trace p, ← b.startSync_draws p, ← b.sendFrame_env_script p.tCs [0x08] _ _ _ h]
  rfl

theorem Bus.wreg1_script (b : Bus) (p : Params) (a : RegAddr) (v : Byte) (bytes : List Byte)
    (polls : List Bool) (later : Option Bool) (h : b.env = .script bytes polls later) :
    b.wreg1 p a v =
      ⟨b.trace ++ (FrameShape.wreg1 a v).events p, .script bytes polls later, b.draws⟩ := by
  rw [← b.wreg1_trace p a v, ← b.wreg1_draws p a v,
    ← b.sendFrame_env_script p.tCs [writeCommand a, v] _ _ _ h]
  rfl

theorem Bus.rreg_script (b : Bus) (p : Params) (a : RegAddr) (v : Byte) (bytes : List Byte)
    (polls : List Bool) (later : Option Bool) (h : b.env = .script (v :: bytes) polls later) :
    b.rreg p a =
      (v, ⟨b.trace ++ (FrameShape.rreg a v).events p, .script bytes polls later, b.draws⟩) := by
  simp [Bus.rreg, Bus.frame, Bus.rx_script _ v bytes polls later, h, Bus.sel, Bus.dly, Bus.emit, Bus.tx,
    FrameShape.events, FrameShape.data, readCommand_eq]

theorem Bus.rdata_script (b : Bus) (p : Params) (v0 v1 v2 : Byte) (bytes : List Byte)
    (polls : List Bool) (later : Option Bool)
    (h : b.env = .script (v0 :: v1 :: v2 :: bytes) polls later) :
    b.rdata p = (sdec v0 v1 v2,
      ⟨b.trace ++ (FrameShape.rdata v0 v1 v2).events p, .script bytes polls later, b.draws⟩) := by
  simp [Bus.rdata, Bus.frame, Bus.rx_script _ v0 (v1 :: v2 :: bytes) polls later,
    Bus.rx_script _ v1 (v2 :: bytes) polls later, Bus.rx_script _ v2 bytes polls later,
    h, Bus.sel, Bus.dly, Bus.emit, FrameShape.events, FrameShape.data]

theorem Bus.xrdwr_script (b : Bus) (p : Params) (v v0 v1 v2 : Byte) (bytes : List Byte)
    (polls : List Bool) (later : Option Bool)
    (h : b.env = .script (v0 :: v1 :: v2 :: bytes) polls later) :
    b.xrdwr p v = (sdec v0 v1 v2,
      ⟨b.trace ++ (FrameShape.xrdwr v v0 v1 v2).events p, .script bytes polls later, b.draws⟩) := by
  simp [Bus.xrdwr, Bus.frame, Bus.xfer_script _ _ v0 (v1 :: v2 :: bytes) polls later,
    Bus.xfer_script _ _ v1 (v2 :: bytes) polls later, Bus.xfer_script _ _ v2 bytes polls later,
    h, Bus.sel, Bus.dly, Bus.emit, FrameShape.events, FrameShape.data]

/-! ## The data reads of a trace -/

/-- The data read a frame is, if it is one. -/
def dataReadOf : FrameShape → List DataBytes
  | .rdata b0 b1 b2 => [⟨b0, b1, b2⟩]
  | .xrdwr _ b0 b1 b2 => [⟨b0, b1, b2⟩]
  | .reset | .start | .pwrdn | .rreg _ _ | .wreg4 _ _ _ _ | .wreg1 _ _ => []

/-- What a piece of trace adds, if what came before the piece has no influence on it. -/
theorem dataReadsFrom_append (tr more : List Event)
    (h : ∀ got, dataReadsFrom got more = dataReadsFrom [] more) (got : List Byte) :
    dataReadsFrom got (tr ++ more) = dataReadsFrom got tr ++ dataReadsFrom [] more := by
  induction tr generalizing got with
  | nil => simp [dataReadsFrom, h]
  | cons e tr ih =>
    cases e with
    | select active => cases active <;> simp [dataReadsFrom, ih]
    | _ => simp [dataReadsFrom, ih]

theorem dataReadsFrom_frame (p : Params) (f : FrameShape) (got : List Byte) :
    dataReadsFrom got (f.events p) = dataReadOf f := by
  cases f <;> simp [FrameShape.events, FrameShape.data, dataReadsFrom, frameRead, dataReadOf]

@[simp] theorem dataReads_frame (p : Params) (f : FrameShape) (tr : List Event) :
    dataReads (tr ++ f.events p) = dataReads tr ++ dataReadOf f := by
  rw [dataReads, dataReadsFrom_append _ _ (by simp [dataReadsFrom_frame]), dataReadsFrom_frame]
  rfl

@[simp] theorem dataReads_poll (c : Bool) (tr : List Event) :
    dataReads (tr ++ [.poll c]) = dataReads tr := by
  rw [dataReads, dataReadsFrom_append _ _ (by simp [dataReadsFrom])]
  simp [dataReadsFrom, dataReads]

end Sys2Proof.Machine
end

