-- ==== Sys2Proof/Laws/PerInstr.lean ====
section
/-! SUPPORT. The statements made once per operation. -/

namespace Sys2Proof.Laws.EncodedLength

open Sys2Proof

/-- How long a request of a space is by its first byte (30_encoding.md R71, R85). -/
def lengthOf (space : Space) (first : Byte) : Option Nat :=
  match space with
  | .host => hostLength first
  | .wire => wireLength first

/-- The encoding of an operation is as long as its first byte says, whatever the operands. -/
def Statement (i : Instr) : Prop :=
  lengthOf i.space ((encodeBytes i).headD 0) = some (encodeBytes i).length

theorem wReset : Statement .wReset := by unfold Statement; decide

theorem wStart : Statement .wStart := by unfold Statement; decide

theorem wPwrdn : Statement .wPwrdn := by unfold Statement; decide

theorem wRreg (a : RegAddr) : Statement (.wRreg a) := by unfold Statement; revert a; decide

theorem wWreg4 (v0 v1 v2 v3 : Byte) : Statement (.wWreg4 v0 v1 v2 v3) := by
  show wireLength 0x43 = some 5
  decide

theorem wWreg1 (a : RegAddr) (v : Byte) : Statement (.wWreg1 a v) := by
  show wireLength (writeCommand a) = some 2
  revert a; decide

theorem init (c : Configuration) : Statement (.init c) := rfl

theorem config (c : Configuration) : Statement (.config c) := rfl

theorem reset : Statement .reset := rfl

theorem start : Statement .start := rfl

theorem pwrdn : Statement .pwrdn := rfl

theorem rreg (a : RegAddr) : Statement (.rreg a) := rfl

theorem wreg4 (v0 v1 v2 v3 : Byte) : Statement (.wreg4 v0 v1 v2 v3) := rfl

theorem wreg1 (a : RegAddr) (v : Byte) : Statement (.wreg1 a v) := rfl

theorem rdata : Statement .rdata := rfl

theorem rdallDSs (ovm : BitVec 2) (g0 g1 : GainCode) : Statement (.rdallDSs ovm g0 g1) := rfl

theorem rdallDCc (ovm : BitVec 2) (g0 g1 : GainCode) : Statement (.rdallDCc ovm g0 g1) := rfl

theorem rdallSSs (ovm : BitVec 4) (g0 g1 g2 g3 : GainCode) :
    Statement (.rdallSSs ovm g0 g1 g2 g3) := rfl

theorem rdallSCc (ovm : BitVec 4) (g0 g1 g2 g3 : GainCode) :
    Statement (.rdallSCc ovm g0 g1 g2 g3) := rfl

end Sys2Proof.Laws.EncodedLength
end

