-- ==== Sys2Proof/Laws/Reference.lean ====
section
/-! SUPPORT. What each transport procedure does to the reference environment of 20_memory.md rule R58:
every procedure leaves no frame open, and the device registers as the rule says. -/

namespace Sys2Proof.Machine

open Sys2Proof.Safety

/-- The bus stands at the reference environment, no frame open, with these device registers. -/
def Bus.AtReference (b : Bus) (regs : DeviceRegs) : Prop :=
  ∃ d, b.env = .reference d ∧ d.pos = .outside ∧ d.regs = regs

theorem referenceAt_iff (s : State) (regs : DeviceRegs) :
    ReferenceAt s regs ↔ s.bus.AtReference regs := Iff.rfl

/-! ## The frame parser -/

/-- A write command opens a write of the register it names. -/
theorem writeCommand_bits (a : RegAddr) :
    (writeCommand a &&& 0xF3 == 0x20) = false ∧ (writeCommand a == 0x43) = false ∧
      (writeCommand a &&& 0xF3 == 0x40) = true ∧ (writeCommand a).extractLsb' 2 2 = a := by
  revert a; decide

/-- A read command opens a read of the register it names. -/
theorem readCommand_bits (a : RegAddr) :
    (readCommand a &&& 0xF3 == 0x20) = true ∧ (readCommand a).extractLsb' 2 2 = a := by
  revert a; decide

@[simp] theorem ReferenceDevice.takeWord_regs (d : ReferenceDevice) : d.takeWord.regs = d.regs := by
  unfold ReferenceDevice.takeWord; split <;> rfl

@[simp] theorem ReferenceDevice.takeWord_pos (d : ReferenceDevice) : d.takeWord.pos = d.pos := by
  unfold ReferenceDevice.takeWord; split <;> rfl

@[simp] theorem ReferenceDevice.shiftByte_regs (d : ReferenceDevice) : d.shiftByte.2.regs = d.regs := by
  unfold ReferenceDevice.shiftByte; split <;> rfl

@[simp] theorem ReferenceDevice.shiftByte_pos (d : ReferenceDevice) : d.shiftByte.2.pos = d.pos := by
  unfold ReferenceDevice.shiftByte; split <;> rfl

/-- A received byte changes no device register. -/
@[simp] theorem ReferenceDevice.receive_regs (d : ReferenceDevice) : d.receive.2.regs = d.regs := by
  unfold ReferenceDevice.receive; split <;> simp

/-- What a sent byte does to the registers and the parser depends on these alone. -/
theorem ReferenceDevice.send_congr {d e : ReferenceDevice} (v : Byte) (hr : d.regs = e.regs)
    (hp : d.pos = e.pos) : (d.send v).regs = (e.send v).regs ∧ (d.send v).pos = (e.send v).pos := by
  unfold ReferenceDevice.send
  rw [hr, hp]
  split
  · simp only [ReferenceDevice.command]
    (repeat' split) <;> first | exact ⟨hr, rfl⟩ | exact ⟨rfl, rfl⟩
  all_goals simp_all

/-- A combined transfer writes what sending its byte writes. -/
theorem ReferenceDevice.exchange_regs_pos (d : ReferenceDevice) (v : Byte) :
    (d.exchange v).2.regs = (d.send v).regs ∧ (d.exchange v).2.pos = (d.send v).pos := by
  unfold ReferenceDevice.exchange
  dsimp only
  split <;> exact ReferenceDevice.send_congr v (by simp) (by simp)

theorem Bus.rx_reference {b : Bus} {d : ReferenceDevice} (h : b.env = .reference d) :
    b.rx.2.env = .reference d.receive.2 := by
  simp [Bus.rx, h, Environment.receive]

theorem Bus.xfer_reference {b : Bus} {d : ReferenceDevice} {v : Byte} (h : b.env = .reference d) :
    (b.xfer v).2.env = .reference (d.exchange v).2 := by
  simp [Bus.xfer, h, Environment.exchange]

/-! ## The procedures -/

theorem Bus.poll_reference {b : Bus} {regs : DeviceRegs} (h : b.AtReference regs) :
    b.poll.2.AtReference regs := by
  obtain ⟨d, he, hp, rfl⟩ := h
  refine ⟨d.poll.2, by simp [Bus.poll, he, Environment.poll], ?_, ?_⟩ <;>
    unfold ReferenceDevice.poll <;> split <;> first | exact hp | rfl

theorem Bus.startSync_reference {b : Bus} {p : Params} {regs : DeviceRegs} (h : b.AtReference regs) :
    (b.startSync p).AtReference regs := by
  obtain ⟨d, he, hp, rfl⟩ := h
  refine ⟨_, by simp [Bus.startSync, Bus.sendFrame, Bus.frame, Bus.send, he, Environment.select,
    Environment.send]; rfl, ?_, ?_⟩ <;>
    simp [ReferenceDevice.select, ReferenceDevice.send, ReferenceDevice.command]

theorem Bus.powerDown_reference {b : Bus} {p : Params} {regs : DeviceRegs} (h : b.AtReference regs) :
    (b.powerDown p).AtReference regs := by
  obtain ⟨d, he, hp, rfl⟩ := h
  refine ⟨_, by simp [Bus.powerDown, Bus.sendFrame, Bus.frame, Bus.send, he, Environment.select,
    Environment.send]; rfl, ?_, ?_⟩ <;>
    simp [ReferenceDevice.select, ReferenceDevice.send, ReferenceDevice.command]

/-- The reset command clears all four registers. -/
theorem Bus.resetDevice_reference {b : Bus} {p : Params} {regs : DeviceRegs}
    (h : b.AtReference regs) : (b.resetDevice p).AtReference ⟨0x00, 0x00, 0x00, 0x00⟩ := by
  obtain ⟨d, he, hp, rfl⟩ := h
  refine ⟨_, by simp [Bus.resetDevice, Bus.sendFrame, Bus.frame, Bus.send, he, Environment.select,
    Environment.send]; rfl, ?_, ?_⟩ <;>
    simp [ReferenceDevice.select, ReferenceDevice.send, ReferenceDevice.command]

/-- The bulk write sets all four registers. -/
theorem Bus.wreg4_reference {b : Bus} {p : Params} {regs : DeviceRegs} (v : RegBytes)
    (h : b.AtReference regs) : (b.wreg4 p v).AtReference ⟨v.b0, v.b1, v.b2, v.b3⟩ := by
  obtain ⟨d, he, hp, rfl⟩ := h
  refine ⟨_, by simp [Bus.wreg4, Bus.sendFrame, Bus.frame, Bus.send, he, Environment.select,
    Environment.send]; rfl, ?_, ?_⟩ <;>
    simp [ReferenceDevice.select, ReferenceDevice.send, ReferenceDevice.command, DeviceRegs.write]

/-- The single write sets the register it names. -/
theorem Bus.wreg1_reference {b : Bus} {p : Params} {regs : DeviceRegs} (a : RegAddr) (v : Byte)
    (h : b.AtReference regs) : (b.wreg1 p a v).AtReference (regs.write a v) := by
  obtain ⟨d, he, hp, rfl⟩ := h
  obtain ⟨h1, h2, h3, h4⟩ := writeCommand_bits a
  refine ⟨_, by simp [Bus.wreg1, Bus.sendFrame, Bus.frame, Bus.send, he, Environment.select,
    Environment.send]; rfl, ?_, ?_⟩ <;>
    simp only [ReferenceDevice.select, ReferenceDevice.send, ReferenceDevice.command, h1, h2, h3, h4,
      if_true, if_false, Bool.false_eq_true]

/-- The register read returns the register it names. -/
theorem Bus.rreg_reference {b : Bus} {p : Params} {regs : DeviceRegs} (a : RegAddr)
    (h : b.AtReference regs) : (b.rreg p a).2.AtReference regs ∧ (b.rreg p a).1 = regs.read a := by
  obtain ⟨d, he, hp, rfl⟩ := h
  obtain ⟨h1, h2⟩ := readCommand_bits a
  refine ⟨⟨_, by simp [Bus.rreg, Bus.frame, Bus.rx, he, Environment.select, Environment.send,
    Environment.receive]; rfl, ?_, ?_⟩, ?_⟩
  · simp only [ReferenceDevice.select, ReferenceDevice.send, ReferenceDevice.command,
      ReferenceDevice.receive, h1, h2, if_true, if_false, Bool.false_eq_true]
  · simp only [ReferenceDevice.select, ReferenceDevice.send, ReferenceDevice.command,
      ReferenceDevice.receive, h1, h2, if_true, if_false, Bool.false_eq_true]
  · have h3 : readCommand a &&& 243#8 = 32#8 := by simpa using h1
    simp [Bus.rreg, Bus.frame, Bus.rx, he, Environment.select, Environment.send, Environment.receive,
      ReferenceDevice.select, ReferenceDevice.send, ReferenceDevice.command, ReferenceDevice.receive,
      Bus.answer]
    rw [if_pos h3]
    simp only [h2]

/-- A data read changes no device register. -/
theorem Bus.rdata_reference {b : Bus} {p : Params} {regs : DeviceRegs} (h : b.AtReference regs) :
    (b.rdata p).2.AtReference regs := by
  obtain ⟨d, he, hp, rfl⟩ := h
  refine ⟨_, by
    unfold Bus.rdata Bus.frame; dsimp only
    rw [Bus.sel_env, Bus.dly_env, Bus.rx_reference (Bus.rx_reference (Bus.rx_reference (by
      rw [Bus.dly_env, Bus.sel_env, he]; rfl)))]
    rfl, rfl, ?_⟩
  simp [ReferenceDevice.select]

/-- A pipelined burst writes register 0. -/
theorem Bus.xrdwr_reference {b : Bus} {p : Params} {regs : DeviceRegs} (v : Byte)
    (h : b.AtReference regs) : (b.xrdwr p v).2.AtReference (regs.write 0 v) := by
  obtain ⟨d, he, hp, rfl⟩ := h
  refine ⟨_, by
    unfold Bus.xrdwr Bus.frame; dsimp only
    rw [Bus.sel_env, Bus.dly_env, Bus.xfer_reference (Bus.xfer_reference (Bus.xfer_reference (by
      rw [Bus.dly_env, Bus.sel_env, he]; rfl)))]
    rfl, rfl, ?_⟩
  simp only [ReferenceDevice.select, if_true, Bool.false_eq_true, if_false]
  generalize hd : (⟨d.regs, d.words, d.polls, FramePos.start, []⟩ : ReferenceDevice) = d0
  have h1 := d0.exchange_regs_pos 0x40
  have h1' : (d0.send 0x40).pos = .writeReg 0 ∧ (d0.send 0x40).regs = d.regs := by
    subst hd; exact ⟨rfl, rfl⟩
  generalize (d0.exchange 0x40).2 = d1 at *
  have h2 := d1.exchange_regs_pos v
  have h2' : (d1.send v).pos = .done ∧ (d1.send v).regs = d.regs.write 0 v := by
    have hpos : d1.pos = .writeReg 0 := by rw [h1.2, h1'.1]
    unfold ReferenceDevice.send
    rw [hpos]
    exact ⟨rfl, by dsimp only; rw [h1.1, h1'.2]⟩
  generalize (d1.exchange v).2 = d2 at *
  have h3 := d2.exchange_regs_pos p.xferFill
  rw [h3.1]
  unfold ReferenceDevice.send
  rw [h2.2, h2'.1]
  dsimp only
  rw [h2.1, h2'.2]

end Sys2Proof.Machine
end

