-- ==== Sys2Proof/Laws/Sequencer.lean ====
section
/-! SUPPORT. What the sequencer's operations can do: one lemma per phase that says which meaning the
transition runs, the three outcomes of a wait, and how a run goes on after a transition. -/

namespace Sys2Proof.Machine

open Sys2Proof.Safety
open Host (Outcome)

/-! ## The transition of each phase (43_sequencer.md R179) -/

theorem transition_idle {s : State} (h : s.phase = .idle) : transition s = .next s := by
  unfold transition; rw [h]

theorem transition_entry {s : State} {op : Latch} (h : s.phase = .entry) (hl : s.latch = some op) :
    transition s = entryPhase op s := by
  unfold transition; rw [h, hl]

theorem transition_waking {s : State} {op : Latch} (h : s.phase = .waking) (hl : s.latch = some op) :
    transition s = wakingPhase s := by
  unfold transition; rw [h, hl]

theorem transition_configuring {s : State} {op : Latch} (h : s.phase = .configuring)
    (hl : s.latch = some op) : transition s = configuringPhase op s := by
  unfold transition; rw [h, hl]

theorem transition_converting {s : State} {op : Latch} (h : s.phase = .converting)
    (hl : s.latch = some op) : transition s = convertingPhase s := by
  unfold transition; rw [h, hl]

theorem transition_reading {s : State} {op : Latch} (h : s.phase = .reading)
    (hl : s.latch = some op) : transition s = readingPhase op s := by
  unfold transition; rw [h, hl]

theorem transition_restoring {s : State} {op : Latch} (h : s.phase = .restoring)
    (hl : s.latch = some op) : transition s = restoringPhase op s := by
  unfold transition; rw [h, hl]

/-! ## How a run goes on -/

/-- After a transition that leaves the sequence neither idle nor waiting the run makes the next one. -/
theorem runTransitions_more {s t : State} {fuel : Nat} (h : transition s = .next t)
    (hp : t.phase ≠ .idle) (hw : t.waiting = false) :
    runTransitions (fuel + 1) s = runTransitions fuel t := by
  simp [runTransitions, h, hp, hw]

/-- A transition that ends the operation ends the run. -/
theorem runTransitions_idle {s t : State} {fuel : Nat} (h : transition s = .next t)
    (hp : t.phase = .idle) : runTransitions (fuel + 1) s = .next t := by
  simp [runTransitions, h, hp]

/-- A transition that is answered "converting" ends the run. -/
theorem runTransitions_waits {s t : State} {fuel : Nat} (h : transition s = .next t)
    (hw : t.waiting = true) : runTransitions (fuel + 1) s = .next t := by
  simp [runTransitions, h, hw]

/-- An `RDALL.*` is `ReadAll` of the operands it latches (43_sequencer.md R175 to R178). -/
theorem exec_of_sequence {i : Instr} {op : Latch} (h : sequenceOf i = some op) (s : State) :
    exec i s = readAll op s := by
  cases i <;> simp only [sequenceOf, Option.some.injEq, reduceCtorEq] at h <;> subst h <;> rfl

/-! ## The wait (41_transport.md R130) -/

/-- The answer is "ready": the sequence goes on. -/
theorem waitReady_ready {s : State} (first : Bool) (after : Phase) (hc : s.params.capDrdy = true)
    (h : s.bus.poll.1 = false) :
    waitReady first after s = .next { s with
      bus := s.bus.poll.2, pcnt := if first then 0 else s.pcnt, waiting := false, phase := after } := by
  simp [waitReady, hc, h]

/-- The answer is "converting", below the limit: the count grows and the phase stands. -/
theorem waitReady_converting {s : State} (first : Bool) (after : Phase)
    (hc : s.params.capDrdy = true) (h : s.bus.poll.1 = true)
    (hl : ∀ limit, s.params.pollLimit = some limit → (if first then 0 else s.pcnt) + 1 < limit) :
    waitReady first after s = .next { s with
      bus := s.bus.poll.2, pcnt := (if first then 0 else s.pcnt) + 1, waiting := true } := by
  have : s.params.pollLimit.any (fun limit => decide ((if first then 0 else s.pcnt) + 1 ≥ limit)) = false := by
    cases hp : s.params.pollLimit with
    | none => rfl
    | some limit => simpa using hl limit hp
  simp only [waitReady, hc, h, this, if_true, Bool.false_eq_true, if_false]

/-- The answer is "converting" and reaches the limit: `ConversionTimeout`. -/
theorem waitReady_timeout {s : State} (first : Bool) (after : Phase) (limit : Nat)
    (hc : s.params.capDrdy = true) (h : s.bus.poll.1 = true)
    (hl : s.params.pollLimit = some limit) (hr : limit ≤ (if first then 0 else s.pcnt) + 1) :
    waitReady first after s = .next (({ s with
      bus := s.bus.poll.2, pcnt := (if first then 0 else s.pcnt) + 1, waiting := true } : State).raise
        .conversionTimeout) := by
  have : s.params.pollLimit.any (fun limit => decide ((if first then 0 else s.pcnt) + 1 ≥ limit)) = true := by
    simpa [hl] using hr
  simp only [waitReady, hc, h, this, if_true]

/-! ## The Configuring step (43_sequencer.md R168) -/

/-- A continuous sequence issues nothing for the channels after the first. -/
theorem configure_pipelined {op : Latch} {s : State} (hm : op.mode = .cc) (hk : 1 ≤ s.k.val) :
    configure op s = s := by
  simp [configure, hm, hk]

/-- Otherwise the channel's value is resident afterwards, and one frame is sent: a write, or a
start/sync where the skip is allowed. -/
theorem configure_issues {op : Latch} {s : State} (h : op.mode = .ss ∨ s.k.val = 0) :
    (configure op s).r0s = s.channelValue op s.k ∧
      (configure op s).bus.trace =
        s.bus.trace ++ configureEvents s.params (s.channelValue op s.k) s.r0s := by
  have hn : (op.mode == .cc && decide (1 ≤ s.k.val)) = false := by
    rcases h with h | h <;> simp [h]
  by_cases hv : s.channelValue op s.k = s.r0s <;> cases hs : s.params.skipUnchanged <;>
    simp [configure, hn, hv, hs, configureEvents, Bus.wreg1_trace, Bus.startSync_trace]

theorem configure_script {op : Latch} {s : State} (h : op.mode = .ss ∨ s.k.val = 0)
    (bytes : List Byte) (polls : List Bool) (later : Option Bool)
    (he : s.bus.env = .script bytes polls later) :
    configure op s = { s with
      r0s := s.channelValue op s.k
      bus := ⟨s.bus.trace ++ configureEvents s.params (s.channelValue op s.k) s.r0s,
        .script bytes polls later, s.bus.draws⟩ } := by
  have hn : (op.mode == .cc && decide (1 ≤ s.k.val)) = false := by
    rcases h with h | h <;> simp [h]
  by_cases hv : s.channelValue op s.k = s.r0s <;> cases hs : s.params.skipUnchanged <;>
    simp [configure, hn, hv, hs, configureEvents, Bus.wreg1_script _ _ _ _ _ _ _ he,
      Bus.startSync_script _ _ _ _ _ he]

/-! ## What a transition can do -/

/-- `advance` leaves a running sequence running. -/
theorem State.advance_phase_ne_idle (s : State) (op : Latch) : (s.advance op).phase ≠ .idle := by
  unfold State.advance; split <;> simp

/-- The three ways one turn of a wait ends, and the stop where the poll is not bound. -/
theorem waitReady_cases {first : Bool} {after : Phase} {s t : State}
    (h : waitReady first after s = .next t) :
    s.params.capDrdy = true ∧
    ((s.bus.poll.1 = false ∧ t = { s with
        bus := s.bus.poll.2, pcnt := if first then 0 else s.pcnt, waiting := false, phase := after }) ∨
     (s.bus.poll.1 = true ∧ t = { s with
        bus := s.bus.poll.2, pcnt := (if first then 0 else s.pcnt) + 1, waiting := true } ∧
        ∀ limit, s.params.pollLimit = some limit → (if first then 0 else s.pcnt) + 1 < limit) ∨
     (s.bus.poll.1 = true ∧ t = (({ s with
        bus := s.bus.poll.2, pcnt := (if first then 0 else s.pcnt) + 1, waiting := true } : State).raise
          .conversionTimeout) ∧
        ∃ limit, s.params.pollLimit = some limit ∧ limit ≤ (if first then 0 else s.pcnt) + 1)) := by
  cases hc : s.params.capDrdy with
  | false => simp [waitReady, hc] at h
  | true =>
    refine ⟨rfl, ?_⟩
    cases hb : s.bus.poll.1 with
    | false =>
      rw [waitReady_ready first after hc hb] at h
      exact .inl ⟨rfl, (Outcome.next.inj h).symm⟩
    | true =>
      by_cases hl : ∃ limit, s.params.pollLimit = some limit ∧ limit ≤ (if first then 0 else s.pcnt) + 1
      · obtain ⟨limit, h1, h2⟩ := hl
        rw [waitReady_timeout first after limit hc hb h1 h2] at h
        exact .inr (.inr ⟨rfl, (Outcome.next.inj h).symm, limit, h1, h2⟩)
      · have hb' : ∀ limit, s.params.pollLimit = some limit →
            (if first then 0 else s.pcnt) + 1 < limit := fun limit h1 =>
          Nat.lt_of_not_le (fun h2 => hl ⟨limit, h1, h2⟩)
        rw [waitReady_converting first after hc hb hb'] at h
        exact .inr (.inl ⟨rfl, (Outcome.next.inj h).symm, hb'⟩)

/-- The two ways phase `READING` reads, and what follows (43_sequencer.md R170, R171, R179). -/
theorem readingPhase_cases {op : Latch} {s t : State} (h : readingPhase op s = .next t) :
    (op.mode = .ss ∧
      t = (({ s with bus := (s.bus.rdata s.params).2 } : State).store (s.bus.rdata s.params).1).advance op) ∨
    (op.mode = .cc ∧ s.params.capXfer = true ∧
      t = (({ s with bus := (s.bus.xrdwr s.params (nextValue op s)).2, r0s := nextValue op s } : State).store
        (s.bus.xrdwr s.params (nextValue op s)).1).advance op) := by
  cases hm : op.mode with
  | ss =>
    simp only [readingPhase, hm, readPlain, Outcome.next.injEq] at h
    exact .inl ⟨rfl, h.symm⟩
  | cc =>
    cases hx : s.params.capXfer with
    | false => simp [readingPhase, hm, readPipelined, hx] at h
    | true =>
      simp only [readingPhase, hm, readPipelined, hx, if_true, Outcome.next.injEq] at h
      exact .inr ⟨rfl, rfl, h.symm⟩

/-- A relation that is reflexive, transitive and holds of every transition holds of every run. -/
theorem runTransitions_rel {R : State → State → Prop} (refl : ∀ s, R s s)
    (trans : ∀ s t u, R s t → R t u → R s u)
    (one : ∀ s t, transition s = .next t → R s t) :
    ∀ (fuel : Nat) (s t : State), runTransitions fuel s = .next t → R s t := by
  intro fuel
  induction fuel with
  | zero =>
    intro s t h
    obtain rfl : s = t := Outcome.next.inj h
    exact refl s
  | succ fuel ih =>
    intro s t h
    cases hs : transition s with
    | next u =>
      simp only [runTransitions, hs] at h
      split at h
      · obtain rfl : u = t := Outcome.next.inj h
        exact one s u hs
      · exact trans s u t (one s u hs) (ih u t h)
    | fault f => simp [runTransitions, hs] at h
    | refused r => simp [runTransitions, hs] at h

/-! ## Every transition, once -/

/-- `Configure(k)` writes the bus and `R0S` only (43_sequencer.md R168). -/
theorem configure_frame (op : Latch) (s : State) :
    ∃ b r, configure op s = { s with bus := b, r0s := r } := by
  unfold configure
  dsimp only
  split
  · exact ⟨s.bus, s.r0s, rfl⟩
  · split
    · exact ⟨_, _, rfl⟩
    · exact ⟨_, s.r0s, rfl⟩

/-- What a transition of a latched sequence can do, row by row of 43_sequencer.md R179. -/
theorem transition_cases {s t : State} {op : Latch} (hl : s.latch = some op)
    (h : transition s = .next t) :
    (s.phase = .idle ∧ t = s) ∨
    (s.phase = .entry ∧ ∃ e, entryError s op = some e ∧ t = s.raise e) ∨
    (s.phase = .entry ∧ entryError s op = none ∧ t = { s with
      nvalid := 0, orig := (s.bus.rreg s.params 0).1, r0s := (s.bus.rreg s.params 0).1
      bus := (s.bus.rreg s.params 0).2, phase := .waking, k := 0 }) ∨
    (s.phase = .waking ∧ s.params.wake = false ∧ t = { s with phase := .configuring }) ∨
    (s.phase = .waking ∧ s.params.wake = true ∧ s.waiting = true ∧
      waitReady false .configuring s = .next t) ∨
    (s.phase = .waking ∧ s.params.wake = true ∧ s.waiting = false ∧
      waitReady true .configuring { s with bus := s.bus.startSync s.params } = .next t) ∨
    (s.phase = .configuring ∧ t = { configure op s with phase := .converting }) ∨
    (s.phase = .converting ∧ waitReady (!s.waiting) .reading s = .next t) ∨
    (s.phase = .reading ∧ readingPhase op s = .next t) ∨
    (s.phase = .restoring ∧ op.mode = .ss ∧
      t = ({ s with bus := s.bus.wreg1 s.params 0 s.orig, r0s := s.orig } : State).complete) ∨
    (s.phase = .restoring ∧ op.mode = .cc ∧ t = s.complete) := by
  cases hp : s.phase with
  | idle => rw [transition_idle hp] at h; cases h; simp
  | entry =>
    rw [transition_entry hp hl, entryPhase] at h
    split at h <;> cases h <;> simp_all
  | waking =>
    rw [transition_waking hp hl, wakingPhase] at h
    split at h
    · split at h <;> simp_all
    · cases h; simp_all
  | configuring => rw [transition_configuring hp hl] at h; cases h; simp
  | converting => rw [transition_converting hp hl] at h; simp [← h, convertingPhase]
  | reading => rw [transition_reading hp hl] at h; simp [← h]
  | restoring =>
    rw [transition_restoring hp hl, restoringPhase] at h
    split at h <;> cases h <;> simp_all

/-- A transition that answers a next state is the idle block's, or a latched sequence's. -/
theorem transition_latched {s t : State} (h : transition s = .next t) :
    s.phase = .idle ∨ ∃ op, s.latch = some op := by
  unfold transition at h; split at h <;> simp_all

/-- The registers no transition writes, and `ORIG`, which only phase `ENTRY` writes
(10_state.md R16, R29). -/
theorem transition_frame {s t : State} (h : transition s = .next t) :
    t.rb = s.rb ∧ t.inited = s.inited ∧ t.warn = s.warn ∧ t.params = s.params ∧
      t.pending = s.pending ∧ (s.phase ≠ .entry → t.orig = s.orig) := by
  rcases transition_latched h with h0 | ⟨op, hl⟩
  · rw [transition_idle h0] at h; cases h; simp
  rcases transition_cases hl h with ⟨_, rfl⟩ | ⟨hp, e, _, rfl⟩ | ⟨hp, _, rfl⟩ | ⟨_, _, rfl⟩ |
    ⟨_, _, _, h⟩ | ⟨_, _, _, h⟩ | ⟨_, rfl⟩ | ⟨_, h⟩ | ⟨_, h⟩ | ⟨_, _, rfl⟩ | ⟨_, _, rfl⟩
  · simp
  · simp
  · simp [hp]
  · simp
  · obtain ⟨_, ⟨_, rfl⟩ | ⟨_, rfl, _⟩ | ⟨_, rfl, _⟩⟩ := waitReady_cases h <;> simp
  · obtain ⟨_, ⟨_, rfl⟩ | ⟨_, rfl, _⟩ | ⟨_, rfl, _⟩⟩ := waitReady_cases h <;> simp
  · simp
  · obtain ⟨_, ⟨_, rfl⟩ | ⟨_, rfl, _⟩ | ⟨_, rfl, _⟩⟩ := waitReady_cases h <;> simp
  · obtain ⟨_, rfl⟩ | ⟨_, _, rfl⟩ := readingPhase_cases h <;> simp
  · simp
  · simp

end Sys2Proof.Machine
end

