-- ==== Sys2Proof/Laws/Scripted.lean ====
section
/-! SUPPORT. The runs of a sequence in a scripted environment, whatever its waits take: how a run goes
through waits, the opening, one channel of each mode, the restore (43_sequencer.md rules R164 to
R173). -/

namespace Sys2Proof.Machine

open Sys2Proof.Safety

/-! ## Runs through waits -/

/-- `F` transitions are enough to take `s` to the next "converting" answer or the end, and `m` further
steps, one for each such answer, take it to `u`. -/
def GoesTo (F m : Nat) (s u : State) : Prop :=
  ∀ fuel, F ≤ fuel → ∃ t, runTransitions fuel s = .next t ∧ runSteps m t = .next u

theorem GoesTo.mono {F F' m : Nat} {s u : State} (g : GoesTo F m s u) (h : F ≤ F') : GoesTo F' m s u :=
  fun fuel hf => g fuel (Nat.le_trans h hf)

/-- A busy block's step goes on with the sequence. -/
theorem step_busy {s : State} (h : s.phase ≠ .idle) : step s = resume s := by
  unfold step
  rw [if_neg (by simpa using h)]

/-- A transition that leaves the sequence neither idle nor waiting. -/
theorem goes_more {F m : Nat} {s t u : State} (h : transition s = .next t) (hp : t.phase ≠ .idle)
    (hw : t.waiting = false) (g : GoesTo F m t u) : GoesTo (F + 1) m s u := by
  intro fuel hf
  obtain ⟨n, rfl⟩ : ∃ n, fuel = n + 1 := ⟨fuel - 1, by omega⟩
  rw [runTransitions_more h hp hw]
  exact g n (by omega)

/-- A transition that ends the operation. -/
theorem goes_idle {s u : State} (h : transition s = .next u) (hp : u.phase = .idle) :
    GoesTo 1 0 s u := by
  intro fuel hf
  obtain ⟨n, rfl⟩ : ∃ n, fuel = n + 1 := ⟨fuel - 1, by omega⟩
  exact ⟨u, runTransitions_idle h hp, rfl⟩

/-- A transition answered "converting": the step ends, and the next one goes on. -/
theorem goes_waits {F m : Nat} {s t u : State} (h : transition s = .next t) (hp : t.phase ≠ .idle)
    (hw : t.waiting = true) (g : GoesTo F m t u) (hF : F ≤ maxTransitions) : GoesTo 1 (m + 1) s u := by
  intro fuel hf
  obtain ⟨n, rfl⟩ : ∃ n, fuel = n + 1 := ⟨fuel - 1, by omega⟩
  obtain ⟨t', h1, h2⟩ := g _ hF
  refine ⟨t, runTransitions_waits h hw, ?_⟩
  rw [runSteps, step_busy hp, resume, h1]
  exact h2

/-! ## A whole wait -/

theorem waitPolls_zero : waitPolls 0 = [false] := rfl

theorem waitPolls_succ (n : Nat) : waitPolls (n + 1) = true :: waitPolls n := by
  simp [waitPolls, List.replicate_succ]

@[simp] theorem waitPolls_count (n : Nat) : (waitPolls n).count true = n := by
  simp [waitPolls]

theorem waitEvents_succ (n : Nat) : waitEvents (n + 1) = .poll true :: waitEvents n := by
  simp [waitEvents, waitPolls_succ]

/-- The turns after the first: `n` more answers "converting", then "ready". -/
theorem goes_later_turns (after : Phase) (hafter : after ≠ .idle) {F m : Nat} {u : State}
    (hF : F + 1 ≤ maxTransitions) (bytes : List Byte) (polls : List Bool) (later : Option Bool) :
    ∀ (n : Nat) (s : State), s.phase ≠ .idle → s.waiting = true → s.params.capDrdy = true →
      (∀ b c, transition { s with bus := b, pcnt := c } =
        waitReady false after { s with bus := b, pcnt := c }) →
      (∀ limit, s.params.pollLimit = some limit → s.pcnt + n < limit) →
      s.bus.env = .script bytes (waitPolls n ++ polls) later →
      GoesTo F m { s with
        pcnt := s.pcnt + n, waiting := false, phase := after
        bus := ⟨s.bus.trace ++ waitEvents n, .script bytes polls later, s.bus.draws⟩ } u →
      GoesTo (F + 1) (m + n) s u := by
  intro n
  induction n with
  | zero =>
    intro s hp hw hd ht hl he g
    have hb := Bus.poll_script s.bus false bytes polls later he
    refine goes_more (t := { s with
      waiting := false, phase := after
      bus := ⟨s.bus.trace ++ waitEvents 0, .script bytes polls later, s.bus.draws⟩ }) ?_ hafter rfl g
    rw [ht s.bus s.pcnt, waitReady_ready false after hd (by rw [hb]), hb]
    rfl
  | succ n ih =>
    intro s hp hw hd ht hl he g
    rw [waitPolls_succ] at he
    have hb := Bus.poll_script s.bus true bytes (waitPolls n ++ polls) later he
    refine (goes_waits (F := F + 1) (m := m + n) (t := { s with
      pcnt := s.pcnt + 1, waiting := true
      bus := ⟨s.bus.trace ++ [.poll true], .script bytes (waitPolls n ++ polls) later, s.bus.draws⟩ })
      ?_ hp rfl (ih _ hp rfl hd (by simpa [hw] using ht) ?_ rfl ?_) hF).mono (by omega)
    · rw [ht s.bus s.pcnt, waitReady_converting false after hd (by rw [hb]), hb]
      · rfl
      · intro limit h
        have := hl limit h
        simp only [Bool.false_eq_true, if_false]
        omega
    · intro limit h
      have := hl limit h
      dsimp only
      omega
    · simpa [waitEvents_succ, Nat.add_assoc, Nat.add_comm, Nat.add_left_comm] using g

/-- A wait from its first turn: `n` answers "converting", then "ready". -/
theorem goes_wait (after : Phase) (hafter : after ≠ .idle) {F m : Nat} {u : State}
    (hF : F + 1 ≤ maxTransitions) (bytes : List Byte) (polls : List Bool) (later : Option Bool)
    (n : Nat) (s s' : State) (hp : s'.phase ≠ .idle) (hd : s'.params.capDrdy = true)
    (first : transition s = waitReady true after s')
    (next : ∀ b c, transition { s' with bus := b, pcnt := c, waiting := true } =
      waitReady false after { s' with bus := b, pcnt := c, waiting := true })
    (hl : BelowLimit s'.params n) (he : s'.bus.env = .script bytes (waitPolls n ++ polls) later)
    (g : GoesTo F m { s' with
      pcnt := n, waiting := false, phase := after
      bus := ⟨s'.bus.trace ++ waitEvents n, .script bytes polls later, s'.bus.draws⟩ } u) :
    GoesTo (F + 1) (m + n) s u := by
  cases n with
  | zero =>
    have hb := Bus.poll_script s'.bus false bytes polls later he
    refine goes_more (t := { s' with
      pcnt := 0, waiting := false, phase := after
      bus := ⟨s'.bus.trace ++ waitEvents 0, .script bytes polls later, s'.bus.draws⟩ }) ?_ hafter rfl g
    rw [first, waitReady_ready true after hd (by rw [hb]), hb]
    rfl
  | succ n =>
    rw [waitPolls_succ] at he
    have hb := Bus.poll_script s'.bus true bytes (waitPolls n ++ polls) later he
    have hl' : ∀ limit, s'.params.pollLimit = some limit → 1 + n < limit := fun limit h => by
      rcases hl limit h with h | h <;> omega
    refine (goes_waits (F := F + 1) (m := m + n) (t := { s' with
      pcnt := 1, waiting := true
      bus := ⟨s'.bus.trace ++ [.poll true], .script bytes (waitPolls n ++ polls) later,
        s'.bus.draws⟩ })
      ?_ hp rfl (goes_later_turns after hafter hF bytes polls later n _ hp rfl hd next hl' rfl ?_)
      hF).mono (by omega)
    · rw [first, waitReady_converting true after hd (by rw [hb]), hb]
      · rfl
      · intro limit h
        have := hl' limit h
        simp only [if_true]
        omega
    · simpa [waitEvents_succ, Nat.add_comm] using g

/-! ## The parts of a sequence -/

/-- Entry and wake: from acceptance to the first Configuring step. -/
theorem goes_opening (op : Latch) (s : State) (orig : Byte) (w : Nat) (bytes : List Byte)
    (polls : List Bool) (later : Option Bool) (hE : entryError s op = none)
    (hd : s.params.capDrdy = true) (hl : s.params.wake = true → BelowLimit s.params w)
    (he : s.bus.env = .script (orig :: bytes) (wakePolls s.params w ++ polls) later) {F m : Nat}
    {u : State} (hF : F + 1 ≤ maxTransitions)
    (g : GoesTo F m { s with
      latch := some op, phase := .configuring, k := 0, waiting := false, nvalid := 0
      orig := orig, r0s := orig, pcnt := if s.params.wake then w else s.pcnt
      bus := ⟨s.bus.trace ++ openingEvents s.params w orig, .script bytes polls later,
        s.bus.draws⟩ } u) :
    GoesTo (F + 2) (m + (wakePolls s.params w).count true) (s.accept op) u := by
  have hr := Bus.rreg_script s.bus s.params 0 orig bytes _ later he
  have h1 : transition (s.accept op) = .next { s with
      latch := some op, phase := .waking, k := 0, waiting := false, nvalid := 0
      orig := orig, r0s := orig
      bus := ⟨s.bus.trace ++ (FrameShape.rreg 0 orig).events s.params,
        .script bytes (wakePolls s.params w ++ polls) later, s.bus.draws⟩ } := by
    have hE' : entryError (s.accept op) op = none := hE
    rw [transition_entry (op := op) rfl rfl]
    simp only [entryPhase, hE']
    rw [show (s.accept op).bus.rreg (s.accept op).params 0 = _ from hr]
    rfl
  refine goes_more h1 (by simp) rfl ?_
  cases hw : s.params.wake with
  | false =>
    have hp : wakePolls s.params w = [] := by simp [wakePolls, hw]
    simp only [hw, hp, List.count_nil, Nat.add_zero, Bool.false_eq_true, if_false] at g ⊢
    refine goes_more ?_ (by simp) rfl g
    rw [transition_waking (op := op) rfl rfl]
    simp [wakingPhase, hw, openingEvents, wakeEvents]
  | true =>
    have hp : wakePolls s.params w = waitPolls w := by simp [wakePolls, hw]
    simp only [hw, hp, waitPolls_count, if_true] at g ⊢
    refine goes_wait .configuring (by simp) hF bytes polls later w _ { s with
      latch := some op, phase := .waking, k := 0, waiting := false, nvalid := 0
      orig := orig, r0s := orig
      bus := ⟨s.bus.trace ++ (FrameShape.rreg 0 orig).events s.params ++
        FrameShape.start.events s.params, .script bytes (waitPolls w ++ polls) later,
        s.bus.draws⟩ } (by simp) hd ?_ ?_ (hl hw) rfl ?_
    · rw [transition_waking (op := op) rfl rfl]
      simp only [wakingPhase, hw, if_true]
      rw [Bus.startSync_script (h := rfl), if_neg (by simp)]
    · intro b c
      rw [transition_waking (op := op) rfl rfl]
      simp only [wakingPhase, hw, if_true]
    · simpa [openingEvents, wakeEvents, hw] using g

/-- The wait of a channel, from the Configuring step that came before it. -/
theorem goes_converting (op : Latch) (s : State) (r : Byte) (tr : List Event) (n : Nat)
    (bytes : List Byte) (polls : List Bool) (later : Option Bool) (hl : s.latch = some op)
    (hph : s.phase = .configuring) (hw : s.waiting = false) (hd : s.params.capDrdy = true)
    (hn : BelowLimit s.params n)
    (hc : configure op s = { s with
      r0s := r, bus := ⟨tr, .script bytes (waitPolls n ++ polls) later, s.bus.draws⟩ }) {F m : Nat}
    {u : State} (hF : F + 1 ≤ maxTransitions)
    (g : GoesTo F m { s with
      phase := .reading, r0s := r, pcnt := n, waiting := false
      bus := ⟨tr ++ waitEvents n, .script bytes polls later, s.bus.draws⟩ } u) :
    GoesTo (F + 2) (m + n) s u := by
  refine goes_more (t := { s with
      phase := .converting, r0s := r
      bus := ⟨tr, .script bytes (waitPolls n ++ polls) later, s.bus.draws⟩ }) ?_ (by simp) hw ?_
  · rw [transition_configuring hph hl, configuringPhase, hc]
  refine goes_wait .reading (by simp) hF bytes polls later n _ { s with
      phase := .converting, r0s := r
      bus := ⟨tr, .script bytes (waitPolls n ++ polls) later, s.bus.draws⟩ } (by simp) hd ?_ ?_ hn rfl g
  · rw [transition_converting (op := op) rfl (by exact hl)]
    simp [convertingPhase, hw]
  · intro b c
    rw [transition_converting (op := op) rfl (by exact hl)]
    simp [convertingPhase]

/-- One channel of a single-shot sequence. -/
theorem goes_channel_plain (op : Latch) (s : State) (d : DataBytes) (n : Nat) (bytes : List Byte)
    (polls : List Bool) (later : Option Bool) (hl : s.latch = some op) (hph : s.phase = .configuring)
    (hm : op.mode = .ss) (hw : s.waiting = false) (hd : s.params.capDrdy = true)
    (hn : BelowLimit s.params n)
    (he : s.bus.env = .script (d.bytes ++ bytes) (waitPolls n ++ polls) later) {F m : Nat} {u : State}
    (hF : F + 2 ≤ maxTransitions)
    (g : GoesTo F m (({ s with
      phase := .reading, r0s := s.channelValue op s.k, pcnt := n, waiting := false
      sr := sdec d.b0 d.b1 d.b2, ch := s.ch.write s.k (sdec d.b0 d.b1 d.b2), nvalid := s.k.succ
      bus := ⟨s.bus.trace ++ configureEvents s.params (s.channelValue op s.k) s.r0s ++
        plainRead s.params n d, .script bytes polls later, s.bus.draws⟩ } : State).advance op) u) :
    GoesTo (F + 3) (m + n) s u := by
  refine goes_converting op s _ _ n _ polls later hl hph hw hd hn
    (configure_script (op := op) (s := s) (.inl hm) _ _ _ he) hF ?_
  refine goes_more ?_ (State.advance_phase_ne_idle _ _) (by simp) g
  rw [transition_reading (op := op) rfl (by exact hl)]
  simp only [readingPhase, hm, readPlain]
  rw [Bus.rdata_script (v0 := d.b0) (v1 := d.b1) (v2 := d.b2) (bytes := bytes) (polls := polls)
    (later := later) (h := rfl)]
  simp [State.store, plainRead]

/-- One channel of a continuous sequence. -/
theorem goes_channel_pipelined (op : Latch) (s : State) (d : DataBytes) (n : Nat) (bytes : List Byte)
    (polls : List Bool) (later : Option Bool) (hl : s.latch = some op) (hph : s.phase = .configuring)
    (hm : op.mode = .cc) (hw : s.waiting = false) (hd : s.params.capDrdy = true)
    (hx : s.params.capXfer = true) (hn : BelowLimit s.params n)
    (he : s.bus.env = .script (d.bytes ++ bytes) (waitPolls n ++ polls) later) {F m : Nat} {u : State}
    (hF : F + 2 ≤ maxTransitions)
    (g : GoesTo F m (({ s with
      phase := .reading, r0s := nextValue op s, pcnt := n, waiting := false
      sr := sdec d.b0 d.b1 d.b2, ch := s.ch.write s.k (sdec d.b0 d.b1 d.b2), nvalid := s.k.succ
      bus := ⟨s.bus.trace ++
        (if s.k.val = 0 then configureEvents s.params (s.channelValue op s.k) s.r0s else []) ++
        burstRead s.params n (nextValue op s) d, .script bytes polls later,
        s.bus.draws⟩ } : State).advance op) u) :
    GoesTo (F + 3) (m + n) s u := by
  obtain ⟨r, hr⟩ : ∃ r, configure op s = { s with
      r0s := r
      bus := ⟨s.bus.trace ++
        (if s.k.val = 0 then configureEvents s.params (s.channelValue op s.k) s.r0s else []),
        .script (d.bytes ++ bytes) (waitPolls n ++ polls) later, s.bus.draws⟩ } := by
    by_cases hk : s.k.val = 0
    · exact ⟨_, by rw [configure_script (op := op) (s := s) (.inr hk) _ _ _ he, if_pos hk]⟩
    · exact ⟨s.r0s, by rw [configure_pipelined hm (by omega), if_neg hk, ← he]; simp⟩
  refine goes_converting op s _ _ n _ polls later hl hph hw hd hn hr hF ?_
  refine goes_more ?_ (State.advance_phase_ne_idle _ _) (by simp) g
  rw [transition_reading (op := op) rfl (by exact hl)]
  simp only [readingPhase, hm, readPipelined, hx, if_true]
  rw [Bus.xrdwr_script (v0 := d.b0) (v1 := d.b1) (v2 := d.b2) (bytes := bytes) (polls := polls)
    (later := later) (h := rfl)]
  have hv : ∀ b r p w q, nextValue op { s with bus := b, r0s := r, phase := p, waiting := w, pcnt := q } =
    nextValue op s := fun _ _ _ _ _ => rfl
  simp [State.store, burstRead, hv]

/-- The single-shot restore. -/
theorem goes_restore_plain (op : Latch) (s : State) (hl : s.latch = some op)
    (hph : s.phase = .restoring) (hm : op.mode = .ss) (bytes : List Byte) (polls : List Bool)
    (later : Option Bool) (he : s.bus.env = .script bytes polls later) :
    GoesTo 1 0 s { s with
      r0s := s.orig, err := 0, phase := .idle, k := 0, latch := none, waiting := false
      bus := ⟨s.bus.trace ++ (FrameShape.wreg1 0 s.orig).events s.params,
        .script bytes polls later, s.bus.draws⟩ } := by
  refine goes_idle ?_ rfl
  rw [transition_restoring hph hl]
  simp [restoringPhase, hm, Bus.wreg1_script _ _ _ _ _ _ _ he, State.complete, State.park,
    State.succeed]

/-- A continuous sequence restores nothing here: its last burst has. -/
theorem goes_restore_pipelined (op : Latch) (s : State) (hl : s.latch = some op)
    (hph : s.phase = .restoring) (hm : op.mode = .cc) :
    GoesTo 1 0 s { s with
      err := 0, phase := .idle, k := 0, latch := none, waiting := false } := by
  refine goes_idle ?_ rfl
  rw [transition_restoring hph hl]
  simp [restoringPhase, hm, State.complete, State.park, State.succeed]

end Sys2Proof.Machine
end

