-- ==== Sys2Proof/Machine/Assembler.lean ====
section
/-! DEFINITION. The text form of a host operation (30_encoding.md rule R87): one operation per line, the
mnemonic, then `name=value` operands separated by commas in any order, and `#` comments. -/

namespace Sys2Proof.Machine

/-- A line's operands: names with their values. -/
abbrev TextOperands := List (List Char × Nat)

/-- One digit of a number in base `base`. -/
def digitValue (base : Nat) (c : Char) : Option Nat :=
  let n := c.toNat
  let v :=
    if 48 ≤ n ∧ n ≤ 57 then some (n - 48)
    else if 65 ≤ n ∧ n ≤ 70 then some (n - 55)
    else if 97 ≤ n ∧ n ≤ 102 then some (n - 87)
    else none
  v.filter (fun d => decide (d < base))

/-- Digits, most significant first, after those that gave `acc`. -/
def digitsValue (base acc : Nat) : List Char → Option Nat
  | [] => some acc
  | c :: cs => (digitValue base c).bind (fun d => digitsValue base (acc * base + d) cs)

/-- A number of 00_scope.md section 6: `0x` hexadecimal, `0b` binary, anything else decimal. -/
def parseNumber : List Char → Option Nat
  | [] => none
  | ['0', 'x'] => none
  | ['0', 'b'] => none
  | '0' :: 'x' :: cs => digitsValue 16 0 cs
  | '0' :: 'b' :: cs => digitsValue 2 0 cs
  | c :: cs => digitsValue 10 0 (c :: cs)

/-- A text cut at every `sep`. -/
def cutAt (sep : Char) : List Char → List (List Char)
  | [] => [[]]
  | c :: cs =>
    if c = sep then [] :: cutAt sep cs
    else
      match cutAt sep cs with
      | [] => [[c]]
      | w :: ws => (c :: w) :: ws

/-- A text without the blanks at its two ends. -/
def trimBlanks (cs : List Char) : List Char :=
  let blank : Char → Bool := fun c => c == ' ' || c == '\t' || c == '\r'
  ((cs.dropWhile blank).reverse.dropWhile blank).reverse

/-- One operand `name=value`. -/
def parseOperand (cs : List Char) : Option (List Char × Nat) :=
  match cutAt '=' cs with
  | [name, value] => (parseNumber (trimBlanks value)).map (fun v => (trimBlanks name, v))
  | _ => none

/-- Operand by operand; none where one of them is not `name=value`. -/
def parseEach : List (List Char) → Option TextOperands
  | [] => some []
  | w :: ws => (parseOperand w).bind (fun o => (parseEach ws).map (fun os => o :: os))

/-- The operands after the mnemonic. A name given twice is refused (DESIGN CHOICE, log 22). -/
def parseOperands (cs : List Char) : Option TextOperands :=
  if trimBlanks cs = [] then some []
  else (parseEach (cutAt ',' cs)).filter (fun os => decide (os.map Prod.fst).Nodup)

/-- No operand has another name than these. -/
def onlyNames (names : List String) (os : TextOperands) : Bool :=
  os.all (fun o => (names.map String.toList).contains o.1)

/-- The value of an operand, where it is given. -/
def givenValue (name : String) (os : TextOperands) : Option Nat := os.lookup name.toList

/-- An operand of `w` bits; none where the value is too wide (30_encoding.md R85, R89). -/
def asWidth (w v : Nat) : Option (BitVec w) := if v < 2 ^ w then some (BitVec.ofNat w v) else none

/-- An operand that must be given. -/
def required (w : Nat) (name : String) (os : TextOperands) : Option (BitVec w) :=
  (givenValue name os).bind (asWidth w)

/-- An operand that is 0 where it is not given (30_encoding.md R87; 44_lifecycle.md R202). -/
def defaulted (w : Nat) (name : String) (os : TextOperands) : Option (BitVec w) :=
  asWidth w ((givenValue name os).getD 0)

/-- The field names of 10_state.md R26. -/
def configurationNames : List String :=
  ["mux", "gain", "pga_bypass", "dr", "op_mode", "conv_mode", "temp_sensor", "burnout", "vref", "fir",
    "psw", "idac", "i1mux", "i2mux", "drdy_mode"]

/-- The Configuration of `INIT` and `CONFIG`: any subset of the fields, the others 0. -/
def textConfiguration (os : TextOperands) : Option Configuration :=
  if onlyNames configurationNames os then do
    let mux ← defaulted 4 "mux" os
    let gain ← defaulted 3 "gain" os
    let pgaBypass ← defaulted 1 "pga_bypass" os
    let dr ← defaulted 3 "dr" os
    let opMode ← defaulted 2 "op_mode" os
    let convMode ← defaulted 1 "conv_mode" os
    let tempSensor ← defaulted 1 "temp_sensor" os
    let burnout ← defaulted 1 "burnout" os
    let vref ← defaulted 2 "vref" os
    let fir ← defaulted 2 "fir" os
    let psw ← defaulted 1 "psw" os
    let idac ← defaulted 3 "idac" os
    let i1mux ← defaulted 3 "i1mux" os
    let i2mux ← defaulted 3 "i2mux" os
    let drdyMode ← defaulted 1 "drdy_mode" os
    some ⟨mux, gain, pgaBypass, dr, opMode, convMode, tempSensor, burnout, vref, fir, psw, idac, i1mux,
      i2mux, drdyMode⟩
  else none

/-- An operation without operands. -/
def textBare (i : Instr) (os : TextOperands) : Option Instr := if os = [] then some i else none

/-- Naming `gk` sets bit `k` of `ovm`. -/
def named (name : String) (os : TextOperands) : BitVec 1 :=
  BitVec.ofBool (givenValue name os).isSome

/-- The override operand of two channels. -/
def textOverride2 (mk : BitVec 2 → GainCode → GainCode → Instr) (os : TextOperands) : Option Instr :=
  if onlyNames ["g0", "g1"] os then do
    let g0 ← defaulted 3 "g0" os
    let g1 ← defaulted 3 "g1" os
    some (mk (named "g1" os ++ named "g0" os) g0 g1)
  else none

/-- The override operand of four channels. -/
def textOverride4 (mk : BitVec 4 → GainCode → GainCode → GainCode → GainCode → Instr)
    (os : TextOperands) : Option Instr :=
  if onlyNames ["g0", "g1", "g2", "g3"] os then do
    let g0 ← defaulted 3 "g0" os
    let g1 ← defaulted 3 "g1" os
    let g2 ← defaulted 3 "g2" os
    let g3 ← defaulted 3 "g3" os
    some (mk (named "g3" os ++ named "g2" os ++ named "g1" os ++ named "g0" os) g0 g1 g2 g3)
  else none

/-- `RREG a=..`. -/
def textRreg (os : TextOperands) : Option Instr :=
  if onlyNames ["a"] os then (required 2 "a" os).map .rreg else none

/-- `WREG4 v0=.., v1=.., v2=.., v3=..`. -/
def textWreg4 (os : TextOperands) : Option Instr :=
  if onlyNames ["v0", "v1", "v2", "v3"] os then do
    let v0 ← required 8 "v0" os
    let v1 ← required 8 "v1" os
    let v2 ← required 8 "v2" os
    let v3 ← required 8 "v3" os
    some (.wreg4 v0 v1 v2 v3)
  else none

/-- `WREG1 a=.., v=..`. -/
def textWreg1 (os : TextOperands) : Option Instr :=
  if onlyNames ["a", "v"] os then do
    let a ← required 2 "a" os
    let v ← required 8 "v" os
    some (.wreg1 a v)
  else none

/-- The operation a mnemonic of 30_encoding.md R85 and its operands name. -/
def textInstr (mnemonic : List Char) (os : TextOperands) : Option Instr :=
  if mnemonic = "INIT".toList then (textConfiguration os).map .init
  else if mnemonic = "CONFIG".toList then (textConfiguration os).map .config
  else if mnemonic = "RESET".toList then textBare .reset os
  else if mnemonic = "START".toList then textBare .start os
  else if mnemonic = "PWRDN".toList then textBare .pwrdn os
  else if mnemonic = "RREG".toList then textRreg os
  else if mnemonic = "WREG4".toList then textWreg4 os
  else if mnemonic = "WREG1".toList then textWreg1 os
  else if mnemonic = "RDATA".toList then textBare .rdata os
  else if mnemonic = "RDALL.D.SS".toList then textOverride2 .rdallDSs os
  else if mnemonic = "RDALL.D.CC".toList then textOverride2 .rdallDCc os
  else if mnemonic = "RDALL.S.SS".toList then textOverride4 .rdallSSs os
  else if mnemonic = "RDALL.S.CC".toList then textOverride4 .rdallSCc os
  else none

/-- One line without its comment; none inside for a line that is empty or only a comment. -/
def assembleLine (line : List Char) : Option (Option Instr) :=
  let text := trimBlanks (line.takeWhile (fun c => c != '#'))
  if text = [] then some none
  else
    let mnemonic := text.takeWhile (fun c => c != ' ')
    ((parseOperands (text.drop mnemonic.length)).bind (textInstr mnemonic)).map some

/-- Line by line. -/
def assembleLines : List (List Char) → Option (List Instr)
  | [] => some []
  | line :: lines =>
    (assembleLine line).bind (fun i => (assembleLines lines).map (fun is => i.toList ++ is))

/-- The operations of a text; none where a line is not an operation. -/
def assemble (text : String) : Option (List Instr) := assembleLines (cutAt '\n' text.toList)

end Sys2Proof.Machine
end

