-- ==== Sys2Proof/Tests/Slice0.lean ====
section
/-! SUPPORT. The author's own tests. Expected values are those of 95_test_vectors.md (V1 to V46, P1 to
P4) or written out from the encoding tables of 30_encoding.md; the last part gives, for each statement
with hypotheses, a state and operands that meet them. -/

namespace Sys2Proof.Tests

open Sys2Proof Sys2Proof.Machine Sys2Proof.Safety

/-! ## Small states -/

/-- An initialised idle block, every register zero. -/
def block (p : Params) (e : Environment) : State where
  params := p
  sr := 0
  ch := ⟨0, 0, 0, 0⟩
  nvalid := 0
  rb := 0
  inited := true
  err := 0
  warn := false
  orig := 0
  r0s := 0
  pcnt := 0
  phase := .idle
  k := 0
  latch := none
  waiting := false
  bus := { trace := [], env := e, draws := 0 }
  pending := []

/-- The parameters of 95_test_vectors.md unless a vector says otherwise, `T_CS = 5`, `T_RST = 100`. -/
def usual : Params := Config.exampleParams

/-- An environment that answers these bytes, then every poll "ready". -/
def ready (bytes : List Byte) : Environment := .script bytes [] (some false)

/-- The state after, where there is one. -/
def after : Host.Outcome State Fault Refusal → Option State
  | .next s => some s
  | .fault _ => none
  | .refused _ => none

/-- The trace after. -/
def trace (o : Host.Outcome State Fault Refusal) : Option (List Event) :=
  (after o).map (fun s => s.bus.trace)

/-- A frame with its guard delays, `T_CS = 5`. -/
def framed (body : List Event) : List Event :=
  [.select true, .delay 5] ++ body ++ [.delay 5, .select false]

/-- The trace of V10. -/
def heldReset : List Event := [.delay 100] ++ framed [.tx 0x06] ++ [.delay 100]

/-! ## Well-formedness: an override gain without its `ovm` bit is refused (V46d) -/

theorem test_gain_without_bit : gainAllowed false 1 = false := by decide

theorem test_gain_with_bit : gainAllowed true 7 = true ∧ gainAllowed false 0 = true := by decide

theorem test_illformed_rdallDSs : (Instr.rdallDSs 0 1 0).wf = false := by decide

theorem test_illformed_rdallDCc : (Instr.rdallDCc 1 0 5).wf = false := by decide

theorem test_illformed_rdallSSs : (Instr.rdallSSs 0b1011 0 0 1 0).wf = false := by decide

theorem test_illformed_rdallSCc : (Instr.rdallSCc 0b0111 0 0 0 1).wf = false := by decide

/-! ## Decoding: one request per operation, its bytes written out from 30_encoding.md R72 and R85 -/

theorem test_decode_wire :
    (decode ⟨.wire, [0x06]⟩).toOption = some .wReset ∧
    (decode ⟨.wire, [0x08]⟩).toOption = some .wStart ∧
    (decode ⟨.wire, [0x02]⟩).toOption = some .wPwrdn ∧
    (decode ⟨.wire, [0x28]⟩).toOption = some (.wRreg 2) ∧
    (decode ⟨.wire, [0x43, 0x5E, 0xD5, 0x6D, 0x72]⟩).toOption = some (.wWreg4 0x5E 0xD5 0x6D 0x72) ∧
    (decode ⟨.wire, [0x4C, 0x50]⟩).toOption = some (.wWreg1 3 0x50) := by decide

/-- Fifteen different operand bytes: no field is read from another's place. -/
theorem test_decode_init :
    (decode ⟨.host, [0x01, 5, 7, 0, 6, 2, 1, 0, 1, 1, 2, 1, 5, 3, 4, 1]⟩).toOption =
      some (.init ⟨5, 7, 0, 6, 2, 1, 0, 1, 1, 2, 1, 5, 3, 4, 1⟩) := by decide

theorem test_decode_config :
    (decode ⟨.host, [0x02, 15, 0, 1, 1, 3, 0, 1, 0, 2, 1, 0, 6, 7, 2, 0]⟩).toOption =
      some (.config ⟨15, 0, 1, 1, 3, 0, 1, 0, 2, 1, 0, 6, 7, 2, 0⟩) := by decide

theorem test_decode_transport :
    (decode ⟨.host, [0x03]⟩).toOption = some .reset ∧
    (decode ⟨.host, [0x04]⟩).toOption = some .start ∧
    (decode ⟨.host, [0x05]⟩).toOption = some .pwrdn ∧
    (decode ⟨.host, [0x06, 0x02]⟩).toOption = some (.rreg 2) ∧
    (decode ⟨.host, [0x07, 1, 2, 3, 4]⟩).toOption = some (.wreg4 1 2 3 4) ∧
    (decode ⟨.host, [0x08, 0x01, 0x04]⟩).toOption = some (.wreg1 1 4) ∧
    (decode ⟨.host, [0x09]⟩).toOption = some .rdata := by decide

theorem test_decode_sequences :
    (decode ⟨.host, [0x10, 3, 7, 0]⟩).toOption = some (.rdallDSs 3 7 0) ∧
    (decode ⟨.host, [0x11, 2, 0, 6]⟩).toOption = some (.rdallDCc 2 0 6) ∧
    (decode ⟨.host, [0x12, 4, 0, 0, 3, 0]⟩).toOption = some (.rdallSSs 4 0 0 3 0) ∧
    (decode ⟨.host, [0x13, 2, 0, 2, 0, 0]⟩).toOption = some (.rdallSCc 2 0 2 0 0) := by decide

/-- V46a: no such opcode. -/
theorem test_refuse_opcodes :
    [0x00, 0x0A, 0x0F, 0x14, 0xFF].all
      (fun b => (decode ⟨.host, [b]⟩).toOption == none) = true := by decide

/-- V46b to V46e. -/
theorem test_refuse_operands :
    (decode ⟨.host, [0x06, 0x04]⟩).toOption = none ∧
    (decode ⟨.host, [0x10, 0x04, 0, 0]⟩).toOption = none ∧
    (decode ⟨.host, [0x10, 0, 1, 0]⟩).toOption = none ∧
    (decode ⟨.host, [0x12, 1, 8, 0, 0, 0]⟩).toOption = none := by decide

/-- Too few bytes, too many, none. -/
theorem test_refuse_lengths :
    (decode ⟨.host, [0x08, 1]⟩).toOption = none ∧ (decode ⟨.host, [0x09, 0]⟩).toOption = none ∧
    (decode ⟨.host, []⟩).toOption = none ∧ (decode ⟨.wire, [0x43, 0, 0, 0]⟩).toOption = none := by decide

/-- 30_encoding.md R79: the bulk read `0x23` and the burst lengths other than 1 and 4 are no command. -/
theorem test_refuse_commands :
    [0x00, 0x10, 0x21, 0x23, 0x41, 0x42, 0x47, 0xFF].all
      (fun b => (decode ⟨.wire, [b, 0]⟩).toOption == none) = true := by decide

/-! ## The text form (30_encoding.md R87), on the programs P2 and P3 -/

theorem test_text_p2 :
    (assemble "INIT gain=1, conv_mode=1\nRDALL.S.CC g1=2   # one override\n\nRREG a=0").map
        (List.map encodeBytes) =
      some [[0x01, 0, 1, 0, 0, 0, 1, 0, 0, 0, 0, 0, 0, 0, 0, 0], [0x13, 2, 0, 2, 0, 0], [0x06, 0]] := by
  decide

theorem test_text_p3 :
    (assemble "WREG1 v=0x04, a=1\nRDALL.D.CC\nPWRDN").map (List.map encodeBytes) =
      some [[0x08, 1, 4], [0x11, 0, 0, 0], [0x05]] := by decide

theorem test_text_refused :
    assemble "RREG a=4" = none ∧ assemble "RREG" = none ∧ assemble "RDALL.D.SS g2=1" = none := by decide

/-! ## The codec, the sample decoder and the channel value -/

/-- V2, V4. -/
theorem test_enc :
    enc ⟨5, 7, 0, 6, 2, 1, 0, 1, 1, 2, 1, 5, 3, 4, 1⟩ = ⟨0x5E, 0xD5, 0x6D, 0x72⟩ ∧
    enc ⟨15, 7, 1, 7, 3, 1, 1, 1, 3, 3, 1, 7, 7, 7, 1⟩ = ⟨0xFF, 0xFF, 0xFF, 0xFE⟩ := by decide

/-- V5, V7. -/
theorem test_dec :
    dec ⟨0x5E, 0xD5, 0x6D, 0x72⟩ = ⟨5, 7, 0, 6, 2, 1, 0, 1, 1, 2, 1, 5, 3, 4, 1⟩ ∧
    dec0 0x85 = (8, 2, 1) ∧ dec0 0x0E = (0, 7, 0) := by decide

/-- V8. -/
theorem test_enc0 : enc0 0xB 2 1 = 0xB5 ∧ enc0 0 7 0 = 0x0E := by decide

/-- V9b, V9c, V9g, V9i, V9k. -/
theorem test_sdec :
    (sdec 0x7F 0xFF 0xFF).toInt = 8388607 ∧ sdec 0x80 0x00 0x00 = 0xFF800000 ∧
    (sdec 0x00 0x80 0x00).toInt = 32768 ∧ (sdec 0xFF 0x00 0x00).toInt = -65536 ∧
    (sdec 0x12 0x34 0x56).toInt = 1193046 := by decide

/-- V19.4, V19.5, V19.8, V19.9 (with the identity map), V19.11. -/
theorem test_chanVal :
    chanVal usual .diff 0 none 0xFF = 0x0F ∧ chanVal usual .diff 0 (some 1) 0x5F = 0x03 ∧
    chanVal usual .se 1 (some 1) 0x30 = 0x93 ∧ chanVal usual .se 0 none 0x0E = 0x8F ∧
    chanVal usual .se 3 (some 2) 0xFE = 0xB5 := by decide

/-- V19.9 with `P.AVSS_GAIN_MAP(7) = 3`. -/
theorem test_chanVal_mapped : chanVal { usual with avssGain7 := 3 } .se 0 none 0x0E = 0x87 := by decide

/-! ## The wire commands -/

theorem test_wReset : trace (exec .wReset (block usual (ready []))) = some heldReset := by decide

theorem test_wStart : trace (exec .wStart (block usual (ready []))) = some (framed [.tx 0x08]) := by
  decide

theorem test_wPwrdn : trace (exec .wPwrdn (block usual (ready []))) = some (framed [.tx 0x02]) := by
  decide

theorem test_wRreg :
    trace (exec (.wRreg 3) (block usual (ready [0xA3]))) = some (framed [.tx 0x2C, .rx 0xA3]) := by decide

theorem test_wWreg4 :
    trace (exec (.wWreg4 0x5E 0xD5 0x6D 0x72) (block usual (ready []))) =
      some (framed [.tx 0x43, .tx 0x5E, .tx 0xD5, .tx 0x6D, .tx 0x72]) := by decide

theorem test_wWreg1 :
    trace (exec (.wWreg1 1 0x50) (block usual (ready []))) = some (framed [.tx 0x44, .tx 0x50]) := by
  decide

/-! ## Lifecycle and transport -/

/-- P3, operation 3: `INIT vref=1` with `P.CAP_XFER = false` on a handle that is not initialised. -/
theorem test_init :
    (after (exec (.init { Configuration.default with vref := 1 })
      { block { usual with capXfer := false } (ready []) with inited := false, err := 1 })).map
        (fun s => (s.inited, s.warn, s.err, s.bus.trace)) =
      some (true, true, 0, heldReset ++ framed [.tx 0x43, .tx 0, .tx 0, .tx 0x40, .tx 0]) := by decide

/-- V2 through `CONFIG`. -/
theorem test_config :
    trace (exec (.config ⟨5, 7, 0, 6, 2, 1, 0, 1, 1, 2, 1, 5, 3, 4, 1⟩) (block usual (ready []))) =
      some (framed [.tx 0x43, .tx 0x5E, .tx 0xD5, .tx 0x6D, .tx 0x72]) := by decide

/-- V10, `ERR` overwritten. -/
theorem test_reset :
    (after (exec .reset { block usual (ready []) with err := 3 })).map (fun s => (s.err, s.bus.trace)) =
      some (0, heldReset) := by decide

/-- V11. -/
theorem test_start : trace (exec .start (block usual (ready []))) = some (framed [.tx 0x08]) := by decide

/-- V42a. -/
theorem test_start_uninitialised :
    after (exec .start { block usual (ready []) with inited := false }) =
      some { block usual (ready []) with inited := false, err := 1 } := by decide

/-- V12. -/
theorem test_pwrdn : trace (exec .pwrdn (block usual (ready []))) = some (framed [.tx 0x02]) := by decide

/-- V13c. -/
theorem test_rreg :
    (after (exec (.rreg 2) (block usual (ready [0xA2])))).map (fun s => (s.rb, s.bus.trace)) =
      some (0xA2, framed [.tx 0x28, .rx 0xA2]) := by decide

/-- V14. -/
theorem test_wreg4 :
    trace (exec (.wreg4 0x5E 0xD5 0x6D 0x72) (block usual (ready []))) =
      some (framed [.tx 0x43, .tx 0x5E, .tx 0xD5, .tx 0x6D, .tx 0x72]) := by decide

/-- V15d. -/
theorem test_wreg1 :
    trace (exec (.wreg1 3 0x50) (block usual (ready []))) = some (framed [.tx 0x4C, .tx 0x50]) := by decide

/-- V16. -/
theorem test_rdata :
    (after (exec .rdata (block usual (ready [0x12, 0x34, 0x56])))).map
        (fun s => (s.sr.toInt, s.nvalid, s.bus.trace)) =
      some (1193046, 0, framed [.rx 0x12, .rx 0x34, .rx 0x56]) := by decide

/-! ## The sequences -/

/-- The reference environment with these registers and words, every poll "ready". -/
def device (regs : DeviceRegs) (words : List RawSample) : Environment :=
  .reference ⟨regs, words, [], .outside, []⟩

/-- V20, the source's scenario. -/
theorem test_rdallDSs :
    (after (exec (.rdallDSs 0 0 0) (block usual (device ⟨0, 0, 0, 0⟩ [0x000001, 0xFFFFFF])))).map
        (fun s => ([s.ch.ch0.toInt, s.ch.ch1.toInt, s.sr.toInt], s.nvalid, s.bus.trace)) =
      some ([1, -1, -1], 2,
        framed [.tx 0x20, .rx 0x00] ++ framed [.tx 0x40, .tx 0x00] ++ [.poll false] ++
          framed [.rx 0x00, .rx 0x00, .rx 0x01] ++ framed [.tx 0x40, .tx 0x50] ++ [.poll false] ++
          framed [.rx 0xFF, .rx 0xFF, .rx 0xFF] ++ framed [.tx 0x40, .tx 0x00]) := by decide

/-- V22 with V21's wake: start/syncs for the wake and for the unchanged first channel. -/
theorem test_rdallDSs_skip_wake :
    trace (exec (.rdallDSs 0 0 0)
      (block { usual with wake := true, skipUnchanged := true }
        (device ⟨0, 0, 0, 0⟩ [0x000001, 0xFFFFFF]))) =
      some (framed [.tx 0x20, .rx 0x00] ++ framed [.tx 0x08] ++ [.poll false] ++
        framed [.tx 0x08] ++ [.poll false] ++ framed [.rx 0x00, .rx 0x00, .rx 0x01] ++
        framed [.tx 0x40, .tx 0x50] ++ [.poll false] ++ framed [.rx 0xFF, .rx 0xFF, .rx 0xFF] ++
        framed [.tx 0x40, .tx 0x00]) := by decide

/-- V24: the override of channel 0, the resident gain of channel 1. -/
theorem test_rdallDCc :
    trace (exec (.rdallDCc 1 1 0) (block usual (device ⟨0x5F, 0, 0, 0⟩ [2, 3]))) =
      some (framed [.tx 0x20, .rx 0x5F] ++ framed [.tx 0x40, .tx 0x03] ++ [.poll false] ++
        framed [.xfer 0x40 0x00, .xfer 0x5F 0x00, .xfer 0x00 0x02] ++ [.poll false] ++
        framed [.xfer 0x40 0x00, .xfer 0x5F 0x00, .xfer 0x00 0x03]) := by decide

/-- V34: the skip does not apply inside the pipeline; the device is left as it was. -/
theorem test_rdallDCc_restores :
    (after (exec (.rdallDCc 0 0 0)
      (block { usual with skipUnchanged := true } (device ⟨0x50, 0, 0, 0⟩ [5, 6])))).map
        (fun s => (s.ch.ch0.toInt, s.ch.ch1.toInt, s.r0s, s.bus.env)) =
      some (5, 6, 0x50, device ⟨0x50, 0, 0, 0⟩ []) := by decide

/-- V31. -/
theorem test_rdallSSs :
    (after (exec (.rdallSSs 0 0 0 0 0)
      (block usual (device ⟨0x04, 0, 0, 0⟩ [0x000001, 0x000002, 0x000003, 0xFFFFFC])))).map
        (fun s => (s.ch.ch3.toInt, s.nvalid, s.r0s,
          s.bus.trace.filterMap (fun e => if e = .tx 0x85 ∨ e = .tx 0x95 ∨ e = .tx 0xA5 ∨ e = .tx 0xB5 ∨
            e = .tx 0x04 then some e else none))) =
      some (-4, 4, 0x04, [.tx 0x85, .tx 0x95, .tx 0xA5, .tx 0xB5, .tx 0x04]) := by decide

/-- V44a: nothing but `ERR` changes. -/
theorem test_rdallSSs_gain :
    after (exec (.rdallSSs 4 0 0 3 0) (block { usual with checkGain := true } (ready []))) =
      some { block { usual with checkGain := true } (ready []) with err := 4 } := by decide

/-- V33. -/
theorem test_rdallSCc :
    trace (exec (.rdallSCc 7 0 1 2 0) (block { usual with wake := true }
      (device ⟨0x30, 0, 0, 0⟩ [0x001000, 0x002000, 0x800001, 0x7F0000]))) =
      some (framed [.tx 0x20, .rx 0x30] ++ framed [.tx 0x08] ++ [.poll false] ++
        framed [.tx 0x40, .tx 0x81] ++ [.poll false] ++
        framed [.xfer 0x40 0x00, .xfer 0x93 0x10, .xfer 0x00 0x00] ++ [.poll false] ++
        framed [.xfer 0x40 0x00, .xfer 0xA5 0x20, .xfer 0x00 0x00] ++ [.poll false] ++
        framed [.xfer 0x40 0x80, .xfer 0xB1 0x00, .xfer 0x00 0x01] ++ [.poll false] ++
        framed [.xfer 0x40 0x7F, .xfer 0x30 0x00, .xfer 0x00 0x00]) := by decide

/-- V45b: the missing capability comes before the gain. -/
theorem test_rdallSCc_order :
    (after (exec (.rdallSCc 1 7 0 0 0)
      (block { usual with checkGain := true, capDrdy := false } (ready [])))).map (fun s => s.err) =
      some 2 := by decide

/-- Frames of V31 and of a pipelined read: the register read and the writes are no data reads. -/
theorem test_dataReads :
    dataReads (framed [.tx 0x20, .rx 0x04] ++ framed [.tx 0x40, .tx 0x85] ++ [.poll false] ++
      framed [.rx 0x00, .rx 0x00, .rx 0x01] ++ framed [.xfer 0x40 0xFF, .xfer 0x04 0xFF, .xfer 0 0xFC]) =
      [⟨0, 0, 1⟩, ⟨0xFF, 0xFF, 0xFC⟩] := by decide

/-! ## Waiting -/

/-- The wake and the gain check on. -/
def waking : Params := { usual with wake := true, checkGain := true }

/-- A single-shot differential sequence that waits for channel 0, one poll answered "converting". -/
def waitingBlock (p : Params) (e : Environment) : State :=
  { block p e with
    phase := .converting, latch := some (latchDiff .ss 0 0 0), waiting := true, pcnt := 1 }

theorem waitingBlock_inv (p : Params) (e : Environment) (hd : p.capDrdy = true)
    (hl : ∀ limit, p.pollLimit = some limit → 1 < limit) :
    SequenceInv (waitingBlock p e) (latchDiff .ss 0 0 0) where
  latched := rfl
  initialised := rfl
  waits := rfl
  pollBound := hd
  xferBound := by intro h; cases h
  counted := Nat.le_refl 1
  belowLimit := hl
  valid := rfl
  inRange := by show 0 < 2; decide
  lastSample := by
    intro j hj
    simp [waitingBlock, block] at hj
  position := .inr ⟨rfl, by
    simp [waitingBlock, block, State.channelValue, latchDiff, Latch.ovr, overrideOf, chanVal, dec0, enc0,
      muxDiff]⟩

/-- The other place a sequence waits in: `WAKING`, before any channel is configured. -/
theorem wakingBlock_inv :
    SequenceInv { waitingBlock waking (ready []) with phase := .waking } (latchDiff .ss 0 0 0) := by
  have h := waitingBlock_inv waking (ready []) rfl (fun _ h => nomatch h)
  exact ⟨h.latched, h.initialised, h.waits, h.pollBound, h.xferBound, h.counted, h.belowLimit, h.valid,
    h.inRange, h.lastSample, .inl ⟨rfl, rfl, rfl, rfl⟩⟩

/-- The first wait of V40 from its second poll on: the third one raises `ConversionTimeout`. -/
theorem test_timeout :
    (after (step { waitingBlock { usual with pollLimit := some 3 } (.script [] [true] none) with
        pcnt := 2 })).map (fun s => (s.err, s.pcnt, s.phase, s.latch)) =
      some (3, 3, .idle, none) := by decide

/-- V18b: the wait goes on while the answer is "converting". -/
theorem test_converting :
    (after (step (waitingBlock usual (.script [] [true] none)))).map
        (fun s => (s.pcnt, s.phase, s.bus.trace)) =
      some (2, .converting, [.poll true]) := by decide

/-! ## Witnesses: for each statement with hypotheses, a state and operands that meet all of them -/

/-- An idle block that is not initialised. -/
def fresh : State := { block usual (ready []) with inited := false }

theorem witness_fresh : fresh.inited = false ∧ BlockIdle fresh :=
  ⟨rfl, rfl, rfl, rfl, rfl⟩

theorem witness_block : (block usual (ready [])).inited = true ∧ BlockIdle (block usual (ready [])) :=
  ⟨rfl, rfl, rfl, rfl, rfl⟩

/-- Both ends of the range. -/
theorem witness_SampleDecoderIsOneToOneOnItsRange :
    (sdec 0x80 0x00 0x00).toInt = -8388608 ∧ (sdec 0x7F 0xFF 0xFF).toInt = 8388607 := by decide

theorem witness_DecodeOfEncodeGivesTheOperationBack :
    (Instr.rdallSCc 0b1010 0 7 0 1).wf = true ∧ (Instr.rdallDSs 0b01 7 0).wf = true ∧
    (Instr.wWreg1 3 0xFF).wf = true := by decide

theorem witness_EveryDecodedRequestIsAnEncoding :
    decode ⟨.host, [0x10, 0x01, 0x07, 0x00]⟩ = .ok (.rdallDSs 1 7 0) := by rfl

/-- Both channels. -/
theorem witness_DifferentialChannelValueKeepsBypass : (0 : Fin 4).val < 2 ∧ (1 : Fin 4).val < 2 := by decide

/-- The largest code the map must pass unchanged. -/
theorem witness_SingleEndedChannelValueForcesBypass : (2 : GainCode).toNat ≤ 2 := by decide

/-- A channel whose bit is clear, and one whose bit is set. -/
theorem witness_OverrideOperandFollowsItsMask :
    (0b01 : BitVec 2).getLsbD 1 = false ∧ (0b01 : BitVec 2).getLsbD 0 = true := by decide

/-- For the transport and lifecycle operations: initialised, and not initialised and idle. -/
theorem witness_ResetSendsTheHeldResetFrame :
    (block usual (ready [])).inited = true ∧ fresh.inited = false ∧ BlockIdle fresh :=
  ⟨rfl, witness_fresh⟩

theorem witness_StartSendsTheStartFrame :
    (block usual (ready [])).inited = true ∧ fresh.inited = false ∧ BlockIdle fresh :=
  ⟨rfl, witness_fresh⟩

theorem witness_PowerDownSendsTheSleepFrame :
    (block usual (ready [])).inited = true ∧ fresh.inited = false ∧ BlockIdle fresh :=
  ⟨rfl, witness_fresh⟩

/-- The third part is about a sequence that is executed. -/
theorem witness_RegisterReadStoresTheReturnedByte :
    (block usual (.script [0xA2] [] none)).inited = true ∧
    (block usual (.script [0xA2] [] none)).bus.env = .script (0xA2 :: []) [] none ∧
    (fresh.inited = false ∧ BlockIdle fresh) ∧
    sequenceOf (.rdallDSs 0 0 0) = some (latchDiff .ss 0 0 0) ∧
    ∃ t, exec (.rdallDSs 0 0 0) (block usual (ready [0, 0, 0, 1, 0, 0, 2])) = .next t :=
  ⟨rfl, rfl, witness_fresh, rfl, _, rfl⟩

theorem witness_BulkWriteSendsItsFourBytes :
    (block usual (ready [])).inited = true ∧ fresh.inited = false ∧ BlockIdle fresh :=
  ⟨rfl, witness_fresh⟩

theorem witness_SingleWriteSendsAddressAndByte :
    (block usual (ready [])).inited = true ∧ fresh.inited = false ∧ BlockIdle fresh :=
  ⟨rfl, witness_fresh⟩

theorem witness_DataReadDecodesThreeBytes :
    (block usual (.script [0x12, 0x34, 0x56] [] none)).inited = true ∧
    (block usual (.script [0x12, 0x34, 0x56] [] none)).bus.env =
      .script (DataBytes.bytes ⟨0x12, 0x34, 0x56⟩ ++ []) [] none ∧
    fresh.inited = false ∧ BlockIdle fresh :=
  ⟨rfl, rfl, witness_fresh⟩

theorem witness_ConfigRewritesAllFourRegisters :
    (block usual (ready [])).inited = true ∧ fresh.inited = false ∧ BlockIdle fresh :=
  ⟨rfl, witness_fresh⟩

theorem witness_WireCommandsEmitTheirFrames :
    (block usual (.script [0xA3] [] none)).bus.env = .script (0xA3 :: []) [] none := rfl

/-- The wake and the gain check on, and at most three polls to a wait. -/
def limited : Params := { waking with pollLimit := some 3 }

/-- Two answers "converting" are the most that the limit allows. -/
theorem limited_below : BelowLimit limited 0 ∧ BelowLimit limited 1 ∧ BelowLimit limited 2 := by
  refine ⟨?_, ?_, ?_⟩ <;>
    · intro limit h
      obtain rfl : 3 = limit := Option.some.inj h
      decide

/-- The wake waits once, channel 0 as long as the limit allows, channel 1 not at all. -/
theorem witness_DifferentialSingleShotSequenceCompletes :
    let s := block limited (.script [0x0E, 1, 2, 3, 4, 5, 6] [true, false, true, true, false, false] none)
    s.inited = true ∧ s.params.capDrdy = true ∧ (s.params.wake = true → BelowLimit s.params 1) ∧
    BelowLimit s.params 2 ∧ BelowLimit s.params 0 ∧
    s.bus.env = .script (0x0E :: (DataBytes.bytes ⟨1, 2, 3⟩ ++ DataBytes.bytes ⟨4, 5, 6⟩ ++ []))
      (wakePolls s.params 1 ++ waitPolls 2 ++ waitPolls 0 ++ []) none :=
  ⟨rfl, rfl, fun _ => limited_below.2.1, limited_below.2.2, limited_below.1, rfl⟩

theorem usual_below (n : Nat) : BelowLimit usual n := fun _ h => nomatch h

/-- No wake and no limit; channel 1 waits three times. -/
theorem witness_DifferentialContinuousSequenceCompletes :
    let s := block usual (.script [0x0E, 1, 2, 3, 4, 5, 6] [false, true, true, true, false] none)
    s.inited = true ∧ s.params.capDrdy = true ∧ s.params.capXfer = true ∧
    (s.params.wake = true → BelowLimit s.params 0) ∧ BelowLimit s.params 0 ∧ BelowLimit s.params 3 ∧
    s.bus.env = .script (0x0E :: (DataBytes.bytes ⟨1, 2, 3⟩ ++ DataBytes.bytes ⟨4, 5, 6⟩ ++ []))
      (wakePolls s.params 0 ++ waitPolls 0 ++ waitPolls 3 ++ []) none :=
  ⟨rfl, rfl, rfl, fun _ => usual_below 0, usual_below 0, usual_below 3, rfl⟩

/-- The gain check on, with an override at the bound. -/
theorem witness_SingleEndedSingleShotSequenceCompletes :
    let s := block limited (.script [0x0E, 1, 2, 3, 4, 5, 6, 7, 8, 9, 10, 11, 12]
      [false, true, false, false, true, true, false, false] none)
    s.inited = true ∧ s.params.capDrdy = true ∧
    (s.params.checkGain = true → ∀ k g, (latchSe .ss 4 0 0 2 0).ovr k = some g → g.toNat ≤ 2) ∧
    (s.params.wake = true → BelowLimit s.params 0) ∧
    BelowLimit s.params 1 ∧ BelowLimit s.params 0 ∧ BelowLimit s.params 2 ∧ BelowLimit s.params 0 ∧
    s.bus.env = .script (0x0E :: (DataBytes.bytes ⟨1, 2, 3⟩ ++ DataBytes.bytes ⟨4, 5, 6⟩ ++
      DataBytes.bytes ⟨7, 8, 9⟩ ++ DataBytes.bytes ⟨10, 11, 12⟩ ++ []))
      (wakePolls s.params 0 ++ waitPolls 1 ++ waitPolls 0 ++ waitPolls 2 ++ waitPolls 0 ++ []) none :=
  ⟨rfl, rfl, by decide, fun _ => limited_below.1, limited_below.2.1, limited_below.1,
    limited_below.2.2, limited_below.1, rfl⟩

theorem witness_SingleEndedContinuousSequenceCompletes :
    let s := block limited (.script [0x0E, 1, 2, 3, 4, 5, 6, 7, 8, 9, 10, 11, 12]
      [false, true, false, false, true, true, false, false] none)
    s.inited = true ∧ s.params.capDrdy = true ∧ s.params.capXfer = true ∧
    (s.params.checkGain = true → ∀ k g, (latchSe .cc 4 0 0 2 0).ovr k = some g → g.toNat ≤ 2) ∧
    (s.params.wake = true → BelowLimit s.params 0) ∧
    BelowLimit s.params 1 ∧ BelowLimit s.params 0 ∧ BelowLimit s.params 2 ∧ BelowLimit s.params 0 ∧
    s.bus.env = .script (0x0E :: (DataBytes.bytes ⟨1, 2, 3⟩ ++ DataBytes.bytes ⟨4, 5, 6⟩ ++
      DataBytes.bytes ⟨7, 8, 9⟩ ++ DataBytes.bytes ⟨10, 11, 12⟩ ++ []))
      (wakePolls s.params 0 ++ waitPolls 1 ++ waitPolls 0 ++ waitPolls 2 ++ waitPolls 0 ++ []) none :=
  ⟨rfl, rfl, rfl, by decide, fun _ => limited_below.1, limited_below.2.1, limited_below.1,
    limited_below.2.2, limited_below.1, rfl⟩

theorem witness_CompletedSequenceFrameCounts :
    sequenceOf (.rdallDCc 0 0 0) = some (latchDiff .cc 0 0 0) ∧
    (block waking (ready [1, 2, 3])).bus.env = .script [1, 2, 3] [] (some false) ∧
    ∃ t, exec (.rdallDCc 0 0 0) (block waking (ready [1, 2, 3])) = .next t ∧ t.phase = .idle ∧ t.err = 0 :=
  ⟨rfl, rfl, _, rfl, rfl, rfl⟩

/-- An operation accepted, and a step of a sequence that waits. -/
theorem witness_SequenceStepsStoreWhatTheyRead :
    let s := block usual (ready [0, 0, 0, 1, 0, 0, 2])
    sequenceOf (.rdallDSs 0 0 0) = some (latchDiff .ss 0 0 0) ∧ BlockIdle s ∧
    entryError s (latchDiff .ss 0 0 0) = none ∧ (∃ t, exec (.rdallDSs 0 0 0) s = .next t) ∧
    SequenceInv (waitingBlock usual (ready [1, 2, 3])) (latchDiff .ss 0 0 0) ∧
    ∃ t, step (waitingBlock usual (ready [1, 2, 3])) = .next t :=
  ⟨rfl, ⟨rfl, rfl, rfl, rfl⟩, rfl, ⟨_, rfl⟩, waitingBlock_inv _ _ rfl (fun _ h => nomatch h), _, rfl⟩

/-- A sequence that meets two waits: two more steps complete it. -/
theorem witness_CompletedSequenceDecodesItsReads :
    let s := block usual (.script [0x0E, 1, 2, 3, 4, 5, 6] [true, false, true, false] none)
    sequenceOf (.rdallDCc 0 0 0) = some (latchDiff .cc 0 0 0) ∧ BlockIdle s ∧ s.pending = [] ∧
    ∃ t u, exec (.rdallDCc 0 0 0) s = .next t ∧ runSteps 2 t = .next u ∧ u.phase = .idle ∧ u.err = 0 :=
  ⟨rfl, ⟨rfl, rfl, rfl, rfl⟩, rfl, _, _, rfl, rfl, rfl, rfl⟩

theorem witness_UninitializedHandleFailsFast :
    Instr.rdata.space = .host ∧ isInit .rdata = false ∧ BlockIdle fresh ∧ fresh.inited = false :=
  ⟨rfl, rfl, witness_fresh.2, rfl⟩

/-- Each of the two ways a capability is missing. -/
theorem witness_MissingCapabilityRefusesTheSequence :
    (sequenceOf (.rdallDSs 0 0 0) = some (latchDiff .ss 0 0 0) ∧
      BlockIdle (block { usual with capDrdy := false } (ready [])) ∧
      (block { usual with capDrdy := false } (ready [])).inited = true ∧
      (block { usual with capDrdy := false } (ready [])).params.capDrdy = false) ∧
    (sequenceOf (.rdallSCc 0 0 0 0 0) = some (latchSe .cc 0 0 0 0 0) ∧
      BlockIdle (block { usual with capXfer := false } (ready [])) ∧
      (latchSe .cc 0 0 0 0 0).mode = .cc ∧
      (block { usual with capXfer := false } (ready [])).params.capXfer = false) :=
  ⟨⟨rfl, ⟨rfl, rfl, rfl, rfl⟩, rfl, rfl⟩, rfl, ⟨rfl, rfl, rfl, rfl⟩, rfl, rfl⟩

/-- A gain asked for that is too large, and one at the bound. -/
theorem witness_InvalidGainRefusesTheSequence :
    sequenceOf (.rdallSSs 4 0 0 3 0) = some (latchSe .ss 4 0 0 3 0) ∧
    BlockIdle (block waking (ready [])) ∧ (block waking (ready [])).inited = true ∧
    (block waking (ready [])).params.capDrdy = true ∧
    ((latchSe .ss 4 0 0 3 0).mode = .cc → (block waking (ready [])).params.capXfer = true) ∧
    ((block waking (ready [])).params.checkGain = true ∧ (latchSe .ss 4 0 0 3 0).top = .se ∧
      ∃ k g, (latchSe .ss 4 0 0 3 0).ovr k = some g ∧ g.toNat > 2) ∧
    (¬ ∃ k g, (latchSe .ss 4 0 0 2 0).ovr k = some g ∧ g.toNat > 2) ∧
    (block waking (ready [])).err ≠ 4 :=
  ⟨rfl, ⟨rfl, rfl, rfl, rfl⟩, rfl, rfl, fun _ => rfl, ⟨rfl, rfl, 2, 3, rfl, by decide⟩, by decide,
    by decide⟩

theorem witness_ErrorCodeIsNotSticky :
    Instr.start.space = .host ∧ BlockIdle (block usual (ready [])) ∧
    ∃ t, exec .start { block usual (ready []) with err := 3 } = .next t ∧ t.phase = .idle :=
  ⟨rfl, ⟨rfl, rfl, rfl, rfl⟩, _, rfl, rfl⟩

/-- With a limit and below it. -/
theorem witness_ConvertingAnswerCountsAndWaits :
    let s := waitingBlock { usual with pollLimit := some 3 } (.script [] (true :: []) none)
    SequenceInv s (latchDiff .ss 0 0 0) ∧ s.bus.env = .script [] (true :: []) none ∧
    ∀ limit, s.params.pollLimit = some limit → s.pcnt + 1 < limit := by
  refine ⟨waitingBlock_inv _ _ rfl ?_, rfl, ?_⟩ <;>
    · intro limit h
      obtain rfl : 3 = limit := Option.some.inj h
      decide

theorem witness_TimeoutAbortsWithoutRestoring :
    let s := waitingBlock { usual with pollLimit := some 2 } (.script [] (true :: []) none)
    SequenceInv s (latchDiff .ss 0 0 0) ∧ s.bus.env = .script [] (true :: []) none ∧
    s.params.pollLimit = some 2 ∧ 2 ≤ s.pcnt + 1 := by
  refine ⟨waitingBlock_inv _ _ rfl ?_, rfl, rfl, by decide⟩
  intro limit h
  obtain rfl : 2 = limit := Option.some.inj h
  decide

/-- The smallest limit. -/
theorem witness_NeverReadyTimesOutAfterExactlyTheLimit :
    let s := block { usual with pollLimit := some 1 } (.script [0] [] (some true))
    sequenceOf (.rdallDSs 0 0 0) = some (latchDiff .ss 0 0 0) ∧ BlockIdle s ∧
    entryError s (latchDiff .ss 0 0 0) = none ∧ s.params.pollLimit = some 1 ∧ 1 ≤ 1 ∧
    s.bus.env = .script [0] [] (some true) :=
  ⟨rfl, ⟨rfl, rfl, rfl, rfl⟩, rfl, rfl, Nat.le_refl 1, rfl⟩

theorem witness_UnboundedWaitPollsForever :
    let s := waitingBlock usual (.script [] [] (some true))
    SequenceInv s (latchDiff .ss 0 0 0) ∧ s.params.pollLimit = none ∧
    s.bus.env = .script [] [] (some true) :=
  ⟨waitingBlock_inv _ _ rfl (fun _ h => nomatch h), rfl, rfl⟩

/-- A running sequence and an idle block both have the invariant. -/
theorem witness_LimitedWaitsEndEverySequence :
    Inv (waitingBlock { usual with pollLimit := some 2 } (ready [])) ∧
    (waitingBlock { usual with pollLimit := some 2 } (ready [])).params.pollLimit = some 2 := by
  refine ⟨⟨by decide, .inr ⟨_, waitingBlock_inv _ _ rfl ?_⟩⟩, rfl⟩
  intro limit h
  obtain rfl : 2 = limit := Option.some.inj h
  decide

theorem witness_EveryStepKeepsTheInvariant :
    Inv (waitingBlock usual (ready [])) ∧ ∃ t, step (waitingBlock usual (ready [])) = .next t :=
  ⟨⟨by decide, .inr ⟨_, waitingBlock_inv _ _ rfl (fun _ h => nomatch h)⟩⟩, _, rfl⟩

theorem witness_NoStepCallsAnUnboundCapability :
    Inv (waitingBlock { usual with capXfer := false } (ready [])) :=
  ⟨by decide, .inr ⟨_, waitingBlock_inv _ _ rfl (fun _ h => nomatch h)⟩⟩

theorem witness_StepRunsTheDecodedOperation :
    let s := { block usual (ready []) with pending := [⟨.host, [0x04]⟩, ⟨.wire, [0x08]⟩] }
    s.phase = .idle ∧ s.pending = ⟨.host, [0x04]⟩ :: [⟨.wire, [0x08]⟩] ∧
    decode ⟨.host, [0x04]⟩ = .ok .start ∧ decode ⟨.wire, [0x08]⟩ = .ok .wStart :=
  ⟨rfl, rfl, rfl, rfl⟩

theorem witness_MalformedRequestHasNoEffect :
    let s := { block usual (ready []) with pending := [⟨.host, [0x06, 0x04]⟩] }
    s.phase = .idle ∧ s.pending = ⟨.host, [0x06, 0x04]⟩ :: [] ∧
    decode ⟨.host, [0x06, 0x04]⟩ = .error .operandTooWide :=
  ⟨rfl, rfl, rfl⟩

theorem witness_BusyBlockTakesNoRequest :
    (waitingBlock usual (ready [])).phase ≠ .idle ∧
    ∃ t, step (waitingBlock usual (ready [])) = .next t :=
  ⟨by decide, _, rfl⟩

theorem witness_ParametersAndInitialisationPersist :
    (∃ t, step (block usual (ready [])) = .next t) ∧ (block usual (ready [])).inited = true ∧
    isInit (.config Configuration.default) = false ∧
    ∃ t, exec (.config Configuration.default) (block usual (ready [])) = .next t :=
  ⟨⟨_, rfl⟩, rfl, rfl, _, rfl⟩

theorem witness_SequenceWritesOnlyItsRegisters :
    sequenceOf (.rdallDSs 0 0 0) = some (latchDiff .ss 0 0 0) ∧
    (∃ t, exec (.rdallDSs 0 0 0) (block usual (ready [0, 0, 0, 1, 0, 0, 2])) = .next t) ∧
    (latchDiff .ss 0 0 0).top = .diff ∧
    SequenceInv (waitingBlock usual (ready [])) (latchDiff .ss 0 0 0) ∧
    ∃ t, step (waitingBlock usual (ready [])) = .next t :=
  ⟨rfl, ⟨_, rfl⟩, rfl, waitingBlock_inv _ _ rfl (fun _ h => nomatch h), _, rfl⟩

theorem witness_EveryStepEmitsWholeFrames :
    (∃ t, step (waitingBlock usual (ready [])) = .next t) ∧
    Framed usual (waitingBlock usual (ready [])).bus.trace :=
  ⟨⟨_, rfl⟩, .empty⟩

/-- The sequence waits for its last channel: one more step completes it. -/
theorem witness_CompletedSequenceRestoresRegisterZero :
    let s := { waitingBlock usual (ready [1, 2, 3]) with k := 1, nvalid := 1, r0s := 0x50 }
    SequenceInv s (latchDiff .ss 0 0 0) ∧
    ∃ t, step s = .next t ∧ t.phase = .idle ∧ t.err = 0 := by
  refine ⟨?_, _, rfl, rfl, rfl⟩
  have h := waitingBlock_inv usual (ready [1, 2, 3]) rfl (fun _ h => nomatch h)
  exact ⟨h.latched, h.initialised, h.waits, h.pollBound, h.xferBound, h.counted, h.belowLimit, rfl,
    by decide, by decide, .inr ⟨rfl, by decide⟩⟩

/-- A sequence that meets a wait: `exec` leaves it running, two more steps end it. -/
theorem witness_ReferenceDeviceRegistersAreRestored :
    let s := block usual (.reference ⟨⟨0x0E, 4, 0, 0⟩, [5, 6], [true], .outside, []⟩)
    sequenceOf (.rdallDCc 0 0 0) = some (latchDiff .cc 0 0 0) ∧ BlockIdle s ∧ s.pending = [] ∧
    ReferenceAt s ⟨0x0E, 4, 0, 0⟩ ∧
    ∃ t u, exec (.rdallDCc 0 0 0) s = .next t ∧ runSteps 2 t = .next u ∧ u.phase = .idle ∧ u.err = 0 :=
  ⟨rfl, ⟨rfl, rfl, rfl, rfl⟩, rfl, ⟨_, rfl, rfl, rfl⟩, _, _, rfl, rfl, rfl, rfl⟩

theorem witness_ResidentValueMatchesTheReferenceDevice :
    let s := waitingBlock usual (device ⟨0, 1, 2, 3⟩ [5])
    SequenceInv s (latchDiff .ss 0 0 0) ∧ ReferenceAt s ⟨0, 1, 2, 3⟩ ∧
    (⟨0, 1, 2, 3⟩ : DeviceRegs).reg0 = s.r0s ∧ ∃ t, step s = .next t :=
  ⟨waitingBlock_inv _ _ rfl (fun _ h => nomatch h), ⟨_, rfl, rfl, rfl⟩, rfl, _, rfl⟩

theorem witness_ReferenceDeviceTakesTheWrites :
    let d : ReferenceDevice := ⟨⟨1, 2, 3, 4⟩, [0x123456], [], .outside, []⟩
    let s := block usual (.reference d)
    s.inited = true ∧ ReferenceAt s ⟨1, 2, 3, 4⟩ ∧ s.bus.env = .reference d ∧ d.words = 0x123456 :: [] :=
  ⟨rfl, ⟨_, rfl, rfl, rfl⟩, rfl, rfl⟩

theorem witness_ReferenceReadReturnsTheLastWrite :
    (block usual (device ⟨1, 2, 3, 4⟩ [])).inited = true ∧
    ReferenceAt (block usual (device ⟨1, 2, 3, 4⟩ [])) ⟨1, 2, 3, 4⟩ :=
  ⟨rfl, _, rfl, rfl, rfl⟩

/-- Two states with other bytes to come and another byte already received. -/
theorem witness_DataBytesNeverSteerTheSequence :
    let s := { waitingBlock usual (ready [1, 2, 3]) with
      bus := { trace := [.rx 0x11], env := ready [1, 2, 3], draws := 0 } }
    let s' := { waitingBlock usual (ready [0x80, 0, 9]) with
      sr := 7, bus := { trace := [.rx 0x22], env := ready [0x80, 0, 9], draws := 0 } }
    SequenceInv s (latchDiff .ss 0 0 0) ∧ SameButData s s' ∧ ∃ t, step s = .next t := by
  refine ⟨?_, ⟨⟨_, _, _, _, rfl, rfl, rfl⟩, rfl, rfl, rfl⟩, _, rfl⟩
  have h := waitingBlock_inv usual (ready [1, 2, 3]) rfl (fun _ h => nomatch h)
  exact ⟨h.latched, h.initialised, h.waits, h.pollBound, h.xferBound, h.counted, h.belowLimit, h.valid,
    h.inRange, h.lastSample, h.position⟩

end Sys2Proof.Tests
end

namespace Sys2Proof.Machine

open Sys2Proof.Safety
open Host (Outcome)

/-! ## The operations that are no sequence: what they can do -/

/-- The two ends of the host wrapper (41_transport.md R131). -/
theorem hostOp_cases {s t : State} {proc : State → State} (h : hostOp s proc = .next t) :
    t = (proc s).succeed ∨ t = s.raise .handleNotInitialized := by
  unfold hostOp at h
  split at h
  · exact .inl (Outcome.next.inj h).symm
  · exact .inr (Outcome.next.inj h).symm

/-- What the host wrapper runs: a procedure on the bus that may write `SR` and `RB`, and that does not
read `ERR`. -/
structure IsProcedure (proc : State → State) : Prop where
  frame : ∀ s, ∃ b r v, proc s = { s with bus := b, rb := r, sr := v }
  ignoresErr : ∀ s e, proc { s with err := e } = { proc s with err := e }

/-- Every host operation but `INIT` and the sequences is a procedure under the host wrapper
(41_transport.md R131). -/
theorem exec_hostOp {i : Instr} (hs : i.space = .host) (hi : isInit i = false)
    (hq : sequenceOf i = none) : ∃ proc, IsProcedure proc ∧ ∀ s, exec i s = hostOp s proc := by
  cases i with
  | wReset | wStart | wPwrdn | wRreg | wWreg4 | wWreg1 => cases hs
  | init => cases hi
  | rdallDSs | rdallDCc | rdallSSs | rdallSCc => cases hq
  | config | reset | start | pwrdn | rreg | wreg4 | wreg1 | rdata =>
    exact ⟨_, ⟨fun _ => ⟨_, _, _, rfl⟩, fun _ _ => rfl⟩, fun _ => rfl⟩

/-- A lone wire command changes the bus only (log 8). -/
theorem exec_wire {i : Instr} (hs : i.space = .wire) (s : State) :
    ∃ b, exec i s = .next { s with bus := b } := by
  cases i with
  | wReset | wStart | wPwrdn | wRreg | wWreg4 | wWreg1 => exact ⟨_, rfl⟩
  | init | config | reset | start | pwrdn | rreg | wreg4 | wreg1 | rdata
  | rdallDSs | rdallDCc | rdallSSs | rdallSCc => cases hs

/-- `INIT` is the operation `isInit` names. -/
theorem exists_init_of_isInit {i : Instr} (h : isInit i = true) : ∃ c, i = .init c := by
  cases i with
  | init c => exact ⟨c, rfl⟩
  | wReset | wStart | wPwrdn | wRreg | wWreg4 | wWreg1 | config | reset | start | pwrdn | rreg | wreg4
  | wreg1 | rdata | rdallDSs | rdallDCc | rdallSSs | rdallSCc => cases h

/-! ## What a run of transitions leaves unchanged -/

/-- The registers no run of a sequence writes (10_state.md R29). -/
theorem runTransitions_frame {fuel : Nat} {s t : State} (h : runTransitions fuel s = .next t) :
    t.rb = s.rb ∧ t.inited = s.inited ∧ t.warn = s.warn ∧ t.params = s.params := by
  refine runTransitions_rel
    (R := fun s t => t.rb = s.rb ∧ t.inited = s.inited ∧ t.warn = s.warn ∧ t.params = s.params)
    (fun _ => ⟨rfl, rfl, rfl, rfl⟩) ?_ ?_ fuel s t h
  · rintro s t u ⟨h1, h2, h3, h4⟩ ⟨h1', h2', h3', h4'⟩
    exact ⟨h1'.trans h1, h2'.trans h2, h3'.trans h3, h4'.trans h4⟩
  · intro s t h
    obtain ⟨h1, h2, h3, h4, _, _⟩ := transition_frame h
    exact ⟨h1, h2, h3, h4⟩

/-- The registers a sequence leaves unchanged at its acceptance (10_state.md R29). -/
theorem readAll_frame {op : Latch} {s t : State} (h : readAll op s = .next t) :
    t.rb = s.rb ∧ t.inited = s.inited ∧ t.warn = s.warn ∧ t.params = s.params :=
  runTransitions_frame (fuel := maxTransitions) (s := s.accept op) h

/-- No turn of a wait enters phase `ENTRY`. -/
theorem waitReady_phase_ne_entry {first : Bool} {after : Phase} {s t : State}
    (h : waitReady first after s = .next t) (ha : after ≠ .entry) (hp : s.phase ≠ .entry) :
    t.phase ≠ .entry := by
  obtain ⟨_, ⟨_, rfl⟩ | ⟨_, rfl, _⟩ | ⟨_, rfl, _⟩⟩ := waitReady_cases h
  · exact ha
  · exact hp
  · simp

/-- A read is followed by `CONFIGURING` or `RESTORING`. -/
theorem State.advance_phase_ne_entry (s : State) (op : Latch) : (s.advance op).phase ≠ .entry := by
  unfold State.advance; split <;> simp

/-- Phase `ENTRY` is left by every transition and entered by none. -/
theorem transition_phase_ne_entry {s t : State} (h : transition s = .next t) : t.phase ≠ .entry := by
  rcases transition_latched h with h0 | ⟨op, hl⟩
  · rw [transition_idle h0] at h; cases h; simp [h0]
  rcases transition_cases hl h with ⟨hp, rfl⟩ | ⟨_, e, _, rfl⟩ | ⟨_, _, rfl⟩ | ⟨_, _, rfl⟩ |
    ⟨hp, _, _, h⟩ | ⟨hp, _, _, h⟩ | ⟨_, rfl⟩ | ⟨hp, h⟩ | ⟨_, h⟩ | ⟨_, _, rfl⟩ | ⟨_, _, rfl⟩
  · simp [hp]
  · simp
  · simp
  · simp
  · exact waitReady_phase_ne_entry h (by decide) (by simp [hp])
  · exact waitReady_phase_ne_entry h (by decide) (by simp [hp])
  · simp
  · exact waitReady_phase_ne_entry h (by decide) (by simp [hp])
  · obtain ⟨_, rfl⟩ | ⟨_, _, rfl⟩ := readingPhase_cases h <;> exact State.advance_phase_ne_entry _ op
  · simp
  · simp

/-- After its entry a sequence does not write `ORIG` (10_state.md R16). -/
theorem runTransitions_orig {fuel : Nat} {s t : State} (h : runTransitions fuel s = .next t)
    (hp : s.phase ≠ .entry) : t.orig = s.orig := by
  refine (runTransitions_rel
    (R := fun s t => s.phase ≠ .entry → t.phase ≠ .entry ∧ t.orig = s.orig)
    (fun _ hp => ⟨hp, rfl⟩) ?_ ?_ fuel s t h hp).2
  · intro s t u hst htu hp
    obtain ⟨hp', ho⟩ := hst hp
    obtain ⟨hp'', ho'⟩ := htu hp'
    exact ⟨hp'', ho'.trans ho⟩
  · intro s t h hp
    obtain ⟨_, _, _, _, _, ho⟩ := transition_frame h
    exact ⟨transition_phase_ne_entry h, ho hp⟩

/-! ## `CH[2]` and `CH[3]` of a differential sequence (10_state.md R12) -/

/-- A write to `CH[0]` or `CH[1]` leaves the other two alone. -/
theorem Channels.write_low (c : Channels) {k : Fin 4} (v : Sample) (hk : k.val < 2) :
    (c.write k v).ch2 = c.ch2 ∧ (c.write k v).ch3 = c.ch3 := by
  match k, hk with
  | 0, _ | 1, _ => exact ⟨rfl, rfl⟩

/-- A differential sequence stands at one of its two channels, or the block is idle. -/
def DiffRunning (s : State) : Prop :=
  s.phase = .idle ∨ ∃ op, s.latch = some op ∧ op.top = .diff ∧ s.k.val < 2

/-- `advance` stays within the two channels of a differential sequence. -/
theorem State.advance_k_lt {s : State} {op : Latch} (hd : op.top = .diff) (hk : s.k.val < 2) :
    (s.advance op).k.val < 2 := by
  by_cases h : s.k.val + 1 < op.top.channels
  · have h2 : s.k.val + 1 < 2 := by simpa [hd, Topology.channels] using h
    rw [State.advance_of_more s op h]
    show (s.k + 1).val < 2
    rw [Fin.val_add]
    exact lt_of_le_of_lt (Nat.mod_le _ _) h2
  · rw [State.advance_of_last s op h]
    exact hk

/-- A turn of a wait stores no sample and keeps the channel. -/
theorem waitReady_diff {first : Bool} {after : Phase} {s t : State} {op : Latch}
    (h : waitReady first after s = .next t) (hl : s.latch = some op) (hd : op.top = .diff)
    (hk : s.k.val < 2) : DiffRunning t ∧ t.ch.ch2 = s.ch.ch2 ∧ t.ch.ch3 = s.ch.ch3 := by
  obtain ⟨_, ⟨_, rfl⟩ | ⟨_, rfl, _⟩ | ⟨_, rfl, _⟩⟩ := waitReady_cases h
  · exact ⟨.inr ⟨op, hl, hd, hk⟩, rfl, rfl⟩
  · exact ⟨.inr ⟨op, hl, hd, hk⟩, rfl, rfl⟩
  · exact ⟨.inl rfl, rfl, rfl⟩

/-- A transition of a differential sequence keeps to the first two channels. -/
theorem transition_diff {s t : State} (h : transition s = .next t) (hr : DiffRunning s) :
    DiffRunning t ∧ t.ch.ch2 = s.ch.ch2 ∧ t.ch.ch3 = s.ch.ch3 := by
  rcases hr with h0 | ⟨op, hl, hd, hk⟩
  · rw [transition_idle h0] at h; cases h; exact ⟨.inl h0, rfl, rfl⟩
  rcases transition_cases hl h with ⟨hp, rfl⟩ | ⟨_, e, _, rfl⟩ | ⟨_, _, rfl⟩ | ⟨_, _, rfl⟩ |
    ⟨_, _, _, h⟩ | ⟨_, _, _, h⟩ | ⟨_, rfl⟩ | ⟨_, h⟩ | ⟨_, h⟩ | ⟨_, _, rfl⟩ | ⟨_, _, rfl⟩
  · simp [DiffRunning, hp]
  · simp [DiffRunning]
  · simp [DiffRunning, hl, hd]
  · simp [DiffRunning, hl, hd, hk]
  · exact waitReady_diff h hl hd hk
  · exact waitReady_diff (s := { s with bus := s.bus.startSync s.params }) h hl hd hk
  · simp [DiffRunning, hl, hd, hk]
  · exact waitReady_diff h hl hd hk
  · obtain ⟨_, rfl⟩ | ⟨_, _, rfl⟩ := readingPhase_cases h
    all_goals
      refine ⟨.inr ⟨op, by simp [hl], hd, State.advance_k_lt hd (by simpa using hk)⟩, ?_⟩
      simpa using Channels.write_low s.ch _ hk
  · simp [DiffRunning]
  · simp [DiffRunning]

/-- A run of a differential sequence leaves `CH[2]` and `CH[3]` alone. -/
theorem runTransitions_diff {fuel : Nat} {s t : State} (h : runTransitions fuel s = .next t)
    (hr : DiffRunning s) : t.ch.ch2 = s.ch.ch2 ∧ t.ch.ch3 = s.ch.ch3 := by
  refine (runTransitions_rel
    (R := fun s t => DiffRunning s → DiffRunning t ∧ t.ch.ch2 = s.ch.ch2 ∧ t.ch.ch3 = s.ch.ch3)
    (fun _ hr => ⟨hr, rfl, rfl⟩) ?_ (fun _ _ h => transition_diff h) fuel s t h hr).2
  intro s t u hst htu hr
  obtain ⟨hr', h2, h3⟩ := hst hr
  obtain ⟨hr'', h2', h3'⟩ := htu hr'
  exact ⟨hr'', h2'.trans h2, h3'.trans h3⟩

/-! ## The running sequence -/

/-- A state of the sequence invariant waits in `WAKING` or `CONVERTING`. -/
theorem sequenceInv_phase {s : State} {op : Latch} (h : SequenceInv s op) :
    s.phase = .waking ∨ s.phase = .converting := by
  obtain ⟨hp, _⟩ | ⟨hp, _⟩ := h.position
  · exact .inl hp
  · exact .inr hp

/-- Its step resumes the sequence. -/
theorem step_of_sequenceInv {s : State} {op : Latch} (h : SequenceInv s op) :
    step s = runTransitions maxTransitions s := by
  refine step_busy fun h0 => ?_
  rcases sequenceInv_phase h with hp | hp <;> simp [hp] at h0

/-! ## `R0S` and device register 0 (10_state.md R17) -/

/-- Under the reference environment device register 0 holds `R0S`, and registers 1 to 3 are those of
`regs`. -/
def ResidentAt (regs : DeviceRegs) (s : State) : Prop :=
  s.bus.AtReference { regs with reg0 := s.r0s }

/-- A single write to register 0 writes that register and no other. -/
theorem Bus.wreg1_zero_reference {b : Bus} {p : Params} {regs : DeviceRegs} (v : Byte)
    (h : b.AtReference regs) : (b.wreg1 p 0 v).AtReference { regs with reg0 := v } :=
  Bus.wreg1_reference 0 v h

/-- So does a pipelined burst. -/
theorem Bus.xrdwr_zero_reference {b : Bus} {p : Params} {regs : DeviceRegs} (v : Byte)
    (h : b.AtReference regs) : (b.xrdwr p v).2.AtReference { regs with reg0 := v } :=
  Bus.xrdwr_reference v h

/-- The Configuring step keeps register 0 at `R0S`: it writes both or neither (43_sequencer.md R168). -/
theorem configure_resident {regs : DeviceRegs} {s : State} (op : Latch) (h : ResidentAt regs s) :
    ResidentAt regs (configure op s) := by
  unfold configure
  dsimp only
  split
  · exact h
  · split
    · exact Bus.wreg1_zero_reference (regs := { regs with reg0 := s.r0s }) _ h
    · exact Bus.startSync_reference h

/-- A turn of a wait only polls, whether it ends ready, converting or in a timeout. -/
theorem waitReady_resident {regs : DeviceRegs} {first : Bool} {after : Phase} {s t : State}
    (h : waitReady first after s = .next t) (hr : ResidentAt regs s) : ResidentAt regs t := by
  obtain ⟨_, ⟨_, rfl⟩ | ⟨_, rfl, _⟩ | ⟨_, rfl, _⟩⟩ := waitReady_cases h <;>
    exact Bus.poll_reference hr

/-- A plain read writes no register; a pipelined one writes register 0 and `R0S` alike
(43_sequencer.md R170, R171). -/
theorem readingPhase_resident {regs : DeviceRegs} {op : Latch} {s t : State}
    (h : readingPhase op s = .next t) (hr : ResidentAt regs s) : ResidentAt regs t := by
  obtain ⟨_, rfl⟩ | ⟨_, _, rfl⟩ := readingPhase_cases h <;> unfold ResidentAt <;>
    simp only [State.advance_bus, State.advance_r0s, State.store_bus, State.store_r0s]
  · exact Bus.rdata_reference hr
  · exact Bus.xrdwr_zero_reference (regs := { regs with reg0 := s.r0s }) _ hr

/-- Every transition keeps register 0 at `R0S`. -/
theorem transition_resident {regs : DeviceRegs} {s t : State} (h : transition s = .next t)
    (hr : ResidentAt regs s) : ResidentAt regs t := by
  rcases transition_latched h with h0 | ⟨op, hl⟩
  · rw [transition_idle h0] at h; cases h; exact hr
  rcases transition_cases hl h with ⟨_, rfl⟩ | ⟨_, e, _, rfl⟩ | ⟨_, _, rfl⟩ | ⟨_, _, rfl⟩ |
    ⟨_, _, _, h⟩ | ⟨_, _, _, h⟩ | ⟨_, rfl⟩ | ⟨_, h⟩ | ⟨_, h⟩ | ⟨_, _, rfl⟩ | ⟨_, _, rfl⟩
  · exact hr
  · exact hr
  · obtain ⟨hat, hread⟩ := Bus.rreg_reference (p := s.params) 0 hr
    have hv : (s.bus.rreg s.params 0).1 = s.r0s := hread
    unfold ResidentAt
    rw [hv]
    exact hat
  · exact hr
  · exact waitReady_resident h hr
  · exact waitReady_resident h (Bus.startSync_reference hr)
  · exact configure_resident op hr
  · exact waitReady_resident h hr
  · exact readingPhase_resident h hr
  · exact Bus.wreg1_zero_reference (regs := { regs with reg0 := s.r0s }) _ hr
  · exact hr

/-- Every run keeps register 0 at `R0S`. -/
theorem runTransitions_resident {regs : DeviceRegs} {fuel : Nat} {s t : State}
    (h : runTransitions fuel s = .next t) : ResidentAt regs s → ResidentAt regs t :=
  runTransitions_rel (R := fun s t => ResidentAt regs s → ResidentAt regs t) (fun _ => id)
    (fun _ _ _ hst htu => htu ∘ hst) (fun _ _ => transition_resident) fuel s t h

/-! ## The old `ERR` has no influence (10_state.md R19) -/

/-- `ERR` overwritten while a sequence runs; an idle block is left as it is. -/
def State.errWhileBusy (s : State) (e : BitVec 3) : State :=
  if s.phase = .idle then s else { s with err := e }

theorem State.errWhileBusy_of_idle {s : State} (h : s.phase = .idle) (e : BitVec 3) :
    s.errWhileBusy e = s := if_pos h

theorem State.errWhileBusy_of_busy {s : State} (h : s.phase ≠ .idle) (e : BitVec 3) :
    s.errWhileBusy e = { s with err := e } := if_neg h

/-- A turn of a wait hands the old `ERR` on or, in a timeout, overwrites it. -/
theorem waitReady_errWhileBusy {first : Bool} {after : Phase} {s t : State} (e : BitVec 3)
    (hp : s.phase ≠ .idle) (ha : after ≠ .idle) (h : waitReady first after s = .next t) :
    waitReady first after { s with err := e } = .next (t.errWhileBusy e) := by
  obtain ⟨hc, ⟨hb, ht⟩ | ⟨hb, ht, hl⟩ | ⟨hb, ht, limit, hl, hr⟩⟩ := waitReady_cases h
  · rw [State.errWhileBusy_of_busy (by simpa [ht] using ha), ht]
    exact waitReady_ready (s := { s with err := e }) first after hc hb
  · rw [State.errWhileBusy_of_busy (by simpa [ht] using hp), ht]
    exact waitReady_converting (s := { s with err := e }) first after hc hb hl
  · rw [State.errWhileBusy_of_idle (by simp [ht]), ht]
    exact waitReady_timeout (s := { s with err := e }) first after limit hc hb hl hr

/-- `Configure(k)` does not read `ERR`. -/
theorem configure_with_err (op : Latch) (s : State) (e : BitVec 3) :
    configure op { s with err := e } = { configure op s with err := e } := by
  unfold configure State.channelValue
  dsimp only
  split
  · rfl
  · split <;> rfl

/-- `advance` does not read `ERR`. -/
theorem State.advance_with_err (s : State) (op : Latch) (e : BitVec 3) :
    ({ s with err := e } : State).advance op = { s.advance op with err := e } := by
  unfold State.advance
  dsimp only
  split <;> rfl

/-- A read hands the old `ERR` on. -/
theorem readingPhase_errWhileBusy {op : Latch} {s t : State} (e : BitVec 3)
    (h : readingPhase op s = .next t) :
    readingPhase op { s with err := e } = .next (t.errWhileBusy e) := by
  obtain ⟨hm, rfl⟩ | ⟨hm, hx, rfl⟩ := readingPhase_cases h <;>
    rw [State.errWhileBusy_of_busy (State.advance_phase_ne_idle _ op), ← State.advance_with_err]
  · simp only [readingPhase, hm, readPlain]
    rfl
  · simp only [readingPhase, hm, readPipelined, hx, if_true]
    rfl

/-- A transition of a running sequence does not read `ERR`: it hands the old code on, or ends the
operation and overwrites it. -/
theorem transition_errWhileBusy {s t : State} (e : BitVec 3) (hp : s.phase ≠ .idle)
    (h : transition s = .next t) : transition { s with err := e } = .next (t.errWhileBusy e) := by
  obtain ⟨op, hl⟩ := (transition_latched h).resolve_left hp
  have hchecks : entryError { s with err := e } op = entryError s op := rfl
  rcases transition_cases hl h with ⟨h0, _⟩ | ⟨hph, _, herr, rfl⟩ | ⟨hph, herr, rfl⟩ | ⟨hph, hw, rfl⟩ |
    ⟨hph, hw, hwt, h⟩ | ⟨hph, hw, hwt, h⟩ | ⟨hph, rfl⟩ | ⟨hph, h⟩ | ⟨hph, h⟩ | ⟨hph, hm, rfl⟩ |
    ⟨hph, hm, rfl⟩
  · exact absurd h0 hp
  · rw [transition_entry (s := { s with err := e }) hph hl, entryPhase, hchecks, herr]
    rfl
  · rw [transition_entry (s := { s with err := e }) hph hl, entryPhase, hchecks, herr]
    rfl
  · rw [transition_waking (s := { s with err := e }) hph hl, wakingPhase, if_neg (by simp [hw])]
    rfl
  · rw [transition_waking (s := { s with err := e }) hph hl, wakingPhase, if_pos hw, if_pos hwt]
    exact waitReady_errWhileBusy e hp (by decide) h
  · rw [transition_waking (s := { s with err := e }) hph hl, wakingPhase, if_pos hw,
      if_neg (by simp [hwt])]
    exact waitReady_errWhileBusy (s := { s with bus := s.bus.startSync s.params }) e hp (by decide) h
  · rw [transition_configuring (s := { s with err := e }) hph hl, configuringPhase, configure_with_err]
    rfl
  · rw [transition_converting (s := { s with err := e }) hph hl]
    exact waitReady_errWhileBusy e hp (by decide) h
  · rw [transition_reading (s := { s with err := e }) hph hl]
    exact readingPhase_errWhileBusy e h
  · rw [transition_restoring (s := { s with err := e }) hph hl, restoringPhase, hm]
    rfl
  · rw [transition_restoring (s := { s with err := e }) hph hl, restoringPhase, hm]
    rfl

/-- A run that ends the operation ends in the same state whatever `ERR` was. -/
theorem runTransitions_err_irrelevant {fuel : Nat} {s t : State} (e : BitVec 3)
    (hp : s.phase ≠ .idle) (h : runTransitions fuel s = .next t) (ht : t.phase = .idle) :
    runTransitions fuel { s with err := e } = .next t := by
  induction fuel generalizing s with
  | zero =>
    obtain rfl : s = t := Outcome.next.inj h
    exact absurd ht hp
  | succ fuel ih =>
    cases hs : transition s with
    | fault f => simp [runTransitions, hs] at h
    | refused r => simp [runTransitions, hs] at h
    | next u =>
      have hs' := transition_errWhileBusy e hp hs
      by_cases hu : u.phase = .idle
      · rw [runTransitions_idle hs hu] at h
        rw [State.errWhileBusy_of_idle hu] at hs'
        rw [runTransitions_idle hs' hu, h]
      · rw [State.errWhileBusy_of_busy hu] at hs'
        cases hw : u.waiting with
        | true =>
          rw [runTransitions_waits hs hw] at h
          obtain rfl : u = t := Outcome.next.inj h
          exact absurd ht hu
        | false =>
          rw [runTransitions_more hs hu hw] at h
          rw [runTransitions_more hs' hu hw]
          exact ih hu h

/-- The host wrapper writes `ERR` on both of its ends and does not read it. -/
theorem hostOp_with_err {proc : State → State} (hproc : IsProcedure proc) (s : State) (e : BitVec 3) :
    hostOp { s with err := e } proc = hostOp s proc := by
  unfold hostOp
  rw [hproc.ignoresErr s e]
  rfl

/-! ## What exec leaves unchanged -/

/-- Every operation but `INIT` leaves the parameters, `INITED` and `WARN` as they were
(10_state.md R15, R29). -/
theorem exec_frame {i : Instr} {s t : State} (hi : isInit i = false) (h : exec i s = .next t) :
    t.params = s.params ∧ t.inited = s.inited ∧ t.warn = s.warn := by
  cases hq : sequenceOf i with
  | some op =>
    rw [exec_of_sequence hq s] at h
    obtain ⟨_, hin, hwarn, hpar⟩ := readAll_frame h
    exact ⟨hpar, hin, hwarn⟩
  | none =>
    cases hsp : i.space with
    | wire =>
      obtain ⟨b, hb⟩ := exec_wire hsp s
      rw [hb] at h; cases h
      exact ⟨rfl, rfl, rfl⟩
    | host =>
      obtain ⟨proc, hproc, hexec⟩ := exec_hostOp hsp hi hq
      obtain ⟨b, r, v, hframe⟩ := hproc.frame s
      rw [hexec s] at h
      rcases hostOp_cases h with rfl | rfl
      · simp [hframe]
      · simp

/-- No operation changes a parameter or clears `INITED`, `INIT` included. -/
theorem exec_keeps_params_inited {i : Instr} {s t : State} (h : exec i s = .next t) :
    t.params = s.params ∧ (s.inited = true → t.inited = true) := by
  cases hi : isInit i with
  | true =>
    obtain ⟨c, rfl⟩ := exists_init_of_isInit hi
    obtain rfl := Outcome.next.inj h
    exact ⟨rfl, fun _ => rfl⟩
  | false =>
    obtain ⟨hpar, hin, _⟩ := exec_frame hi h
    exact ⟨hpar, fun hs => hin.trans hs⟩

/-- What a step can do: nothing, drop a malformed request, execute an operation, or resume the running
sequence (20_memory.md R55; 30_encoding.md R89). -/
theorem step_cases {s t : State} (h : step s = .next t) :
    (s.phase = .idle ∧ s.pending = [] ∧ t = s) ∨
    (∃ r rest e, s.phase = .idle ∧ s.pending = r :: rest ∧ decode r = .error e ∧
      t = { s with pending := rest }) ∨
    (∃ r rest i, s.phase = .idle ∧ s.pending = r :: rest ∧ decode r = .ok i ∧
      exec i { s with pending := rest } = .next t) ∨
    (s.phase ≠ .idle ∧ runTransitions maxTransitions s = .next t) := by
  by_cases hp : s.phase = .idle
  · rw [step, if_pos (beq_iff_eq.mpr hp), State.nextRequest] at h
    cases hq : s.pending with
    | nil =>
      simp only [hq] at h
      exact .inl ⟨hp, rfl, (Outcome.next.inj h).symm⟩
    | cons r rest =>
      cases hd : decode r with
      | error e =>
        simp only [hq, hd] at h
        exact .inr (.inl ⟨r, rest, e, hp, rfl, hd, (Outcome.next.inj h).symm⟩)
      | ok i =>
        simp only [hq, hd] at h
        exact .inr (.inr (.inl ⟨r, rest, i, hp, rfl, hd, h⟩))
  · rw [step_busy hp] at h
    exact .inr (.inr (.inr ⟨hp, h⟩))

/-! ## The obligations of 10_state.md -/

/-- Settles O33: a sequence carries the old `ERR` along until it ends and overwrites it; the other host
operations write it at both ends of their wrapper. -/
theorem errorCodeIsNotSticky : Obligations.ErrorCodeIsNotSticky := by
  unfold Obligations.ErrorCodeIsNotSticky
  intro i s t e hspace _ h ht
  cases hi : isInit i with
  | true =>
    obtain ⟨c, rfl⟩ := exists_init_of_isInit hi
    exact h
  | false =>
    cases hq : sequenceOf i with
    | none =>
      obtain ⟨proc, hproc, hexec⟩ := exec_hostOp hspace hi hq
      rw [hexec, hostOp_with_err hproc] at h
      rw [hexec, h]
    | some op =>
      rw [exec_of_sequence hq] at h ⊢
      exact runTransitions_err_irrelevant (s := ({ s with err := e } : State).accept op) s.err
        (by simp) h ht

/-- Settles O46: every operation keeps the parameters and `INITED`, and so does every run of a
sequence. -/
theorem parametersAndInitialisationPersist : Obligations.ParametersAndInitialisationPersist := by
  unfold Obligations.ParametersAndInitialisationPersist
  refine ⟨fun s t h => ?_, fun i s t hi h => (exec_frame hi h).2⟩
  rcases step_cases h with ⟨_, _, rfl⟩ | ⟨r, rest, e, _, _, _, rfl⟩ | ⟨r, rest, i, _, _, _, hexec⟩ |
    ⟨_, hrun⟩
  · exact ⟨rfl, id⟩
  · exact ⟨rfl, id⟩
  · exact exec_keeps_params_inited (s := { s with pending := rest }) hexec
  · obtain ⟨_, hin, _, hpar⟩ := runTransitions_frame hrun
    exact ⟨hpar, fun hs => hin.trans hs⟩

/-- Settles O47: acceptance and every later step are runs of transitions, which write neither `RB`,
`INITED` nor `WARN`, keep a differential sequence to its two channels, and write `ORIG` at the entry
only. -/
theorem sequenceWritesOnlyItsRegisters : Obligations.SequenceWritesOnlyItsRegisters := by
  unfold Obligations.SequenceWritesOnlyItsRegisters
  refine ⟨fun i op s t hq h => ?_, fun op s t hinv h => ?_⟩
  · rw [exec_of_sequence hq] at h
    obtain ⟨hrb, hin, hwarn, _⟩ := readAll_frame h
    refine ⟨hrb, hin, hwarn, fun hd => ?_⟩
    exact runTransitions_diff (fuel := maxTransitions) (s := s.accept op) h
      (.inr ⟨op, rfl, hd, by simp⟩)
  · rw [step_of_sequenceInv hinv] at h
    obtain ⟨hrb, hin, hwarn, _⟩ := runTransitions_frame h
    have hentry : s.phase ≠ .entry := by
      rcases sequenceInv_phase hinv with hp | hp <;> simp [hp]
    refine ⟨hrb, hin, hwarn, runTransitions_orig h hentry, fun hd => runTransitions_diff h ?_⟩
    exact .inr ⟨op, hinv.latched, hd, by simpa [hd, Topology.channels] using hinv.inRange⟩

/-- Settles O51: every transition that writes device register 0 writes `R0S` with the same byte, and a
timeout writes neither. -/
theorem residentValueMatchesTheReferenceDevice :
    Obligations.ResidentValueMatchesTheReferenceDevice := by
  unfold Obligations.ResidentValueMatchesTheReferenceDevice
  intro s t op regs hinv hat hr0 h
  rw [step_of_sequenceInv hinv] at h
  have hs : ResidentAt regs s := by
    unfold ResidentAt
    rw [← hr0]
    exact hat
  exact runTransitions_resident h hs

/-- Settles O39: the values 10_state.md R28 states for the reset of the block. -/
theorem resetLeavesTheSpecifiedValues : Obligations.ResetLeavesTheSpecifiedValues := by
  unfold Obligations.ResetLeavesTheSpecifiedValues
  intro p e
  simp

/-- The block is idle after its reset (10_state.md R28). -/
theorem blockIdle_resetWith (p : Params) (e : Environment) : BlockIdle (State.resetWith p e) :=
  ⟨rfl, rfl, rfl, rfl⟩

/-- Settles O40: the block is idle after reset and `ERR` is 0, for any parameters and any environment. -/
theorem invariantHoldsAfterReset : Obligations.InvariantHoldsAfterReset := by
  unfold Obligations.InvariantHoldsAfterReset
  have hreset (p : Params) (e : Environment) : Inv (State.resetWith p e) :=
    ⟨by simp, .inl (blockIdle_resetWith p e)⟩
  exact ⟨hreset, hreset _ _⟩

end Sys2Proof.Machine

namespace Sys2Proof.Machine

open Sys2Proof.Safety
open Host (Outcome)

/-! ## The step of the idle block, by what stands at the port (20_memory.md R55) -/

/-- With no request the block stays idle (log 6). -/
theorem step_no_request {s : State} (hp : s.phase = .idle) (hq : s.pending = []) :
    step s = .next s := by
  simp [step, State.nextRequest, hp, hq]

/-- A malformed request is dropped (30_encoding.md R89; log 7). -/
theorem step_malformed {s : State} {r : Request} {rest : List Request} {e : DecodeError}
    (hp : s.phase = .idle) (hq : s.pending = r :: rest) (hd : decode r = .error e) :
    step s = .next { s with pending := rest } := by
  simp [step, State.nextRequest, hp, hq, hd]

/-- A well-formed request is taken and its operation executed. -/
theorem step_decoded {s : State} {r : Request} {rest : List Request} {i : Instr}
    (hp : s.phase = .idle) (hq : s.pending = r :: rest) (hd : decode r = .ok i) :
    step s = exec i { s with pending := rest } := by
  simp [step, State.nextRequest, hp, hq, hd]

/-! ## No operation stops (20_memory.md R46) -/

/-- The entry check of 43_sequencer.md R162: the poll is bound, and in a continuous sequence the combined
transfer too. -/
theorem capabilityMissing_eq_false {p : Params} {mode : Mode} :
    capabilityMissing p mode = false ↔
      p.capDrdy = true ∧ (mode = .cc → p.capXfer = true) := by
  cases mode <;> simp [capabilityMissing]

/-- An operation that passes the entry checks has its capabilities (43_sequencer.md R161). -/
theorem capabilityMissing_of_entryError_none {s : State} {op : Latch} (h : entryError s op = none) :
    capabilityMissing s.params op.mode = false := by
  unfold entryError at h
  split at h
  · cases h
  · split at h
    next => cases h
    next hbound => simpa using hbound

/-- The block is idle, or the running sequence has its operands latched and stands before its entry
checks or has its capabilities bound. -/
def Supplied (s : State) : Prop :=
  s.phase = .idle ∨
    ∃ op, s.latch = some op ∧ (s.phase = .entry ∨ capabilityMissing s.params op.mode = false)

/-- A choice between two next states answers a next state. -/
theorem exists_next_of_ite (c : Prop) [Decidable c] (a b : State) :
    ∃ t, (if c then .next a else .next b : Outcome State Fault Refusal) = .next t := by
  split
  · exact ⟨a, rfl⟩
  · exact ⟨b, rfl⟩

/-- The entry checks raise an error or let the sequence go on: neither stops. -/
theorem entryPhase_progress (op : Latch) (s : State) : ∃ t, entryPhase op s = .next t := by
  unfold entryPhase
  split
  · exact ⟨_, rfl⟩
  · exact ⟨_, rfl⟩

/-- With the poll bound a turn of a wait does not stop. -/
theorem waitReady_progress (first : Bool) (after : Phase) {s : State}
    (hc : s.params.capDrdy = true) : ∃ t, waitReady first after s = .next t := by
  cases hb : s.bus.poll.1 with
  | false => exact ⟨_, waitReady_ready first after hc hb⟩
  | true =>
    simp only [waitReady, hc, hb, if_true]
    exact exists_next_of_ite _ _ _

/-- With the combined transfer bound where the mode needs it, a read does not stop. -/
theorem readingPhase_progress {op : Latch} {s : State}
    (hx : op.mode = .cc → s.params.capXfer = true) : ∃ t, readingPhase op s = .next t := by
  cases hm : op.mode with
  | ss =>
    simp only [readingPhase, hm, readPlain]
    exact ⟨_, rfl⟩
  | cc =>
    simp only [readingPhase, hm, readPipelined, hx hm, if_true]
    exact ⟨_, rfl⟩

/-- A supplied block's transition answers a next state. -/
theorem transition_progress {s : State} (hs : Supplied s) : ∃ t, transition s = .next t := by
  rcases hs with h0 | ⟨op, hl, hs⟩
  · exact ⟨s, transition_idle h0⟩
  have hcap (hp : s.phase ≠ .entry) := capabilityMissing_eq_false.mp (hs.resolve_left hp)
  cases hp : s.phase with
  | idle => exact ⟨s, transition_idle hp⟩
  | entry =>
    rw [transition_entry hp hl]
    exact entryPhase_progress op s
  | waking =>
    obtain ⟨hpoll, _⟩ := hcap (by simp [hp])
    rw [transition_waking hp hl, wakingPhase]
    split
    · split
      · exact waitReady_progress _ _ hpoll
      · exact waitReady_progress _ _ hpoll
    · exact ⟨_, rfl⟩
  | configuring => exact ⟨_, transition_configuring hp hl⟩
  | converting =>
    obtain ⟨hpoll, _⟩ := hcap (by simp [hp])
    rw [transition_converting hp hl]
    exact waitReady_progress _ _ hpoll
  | reading =>
    obtain ⟨_, hxfer⟩ := hcap (by simp [hp])
    rw [transition_reading hp hl]
    exact readingPhase_progress hxfer
  | restoring =>
    rw [transition_restoring hp hl, restoringPhase]
    split
    · exact ⟨_, rfl⟩
    · exact ⟨_, rfl⟩

/-- A turn of a wait keeps the operands latched, unless it times out. -/
theorem waitReady_latch {first : Bool} {after : Phase} {s t : State}
    (h : waitReady first after s = .next t) : t.phase = .idle ∨ t.latch = s.latch := by
  obtain ⟨_, ⟨_, rfl⟩ | ⟨_, rfl, _⟩ | ⟨_, rfl, _⟩⟩ := waitReady_cases h
  · exact .inr rfl
  · exact .inr rfl
  · exact .inl rfl

/-- A transition ends the operation or keeps its operands latched, and it leaves `ENTRY` for another
phase only when the checks pass (43_sequencer.md R161, R179). -/
theorem transition_latch {s t : State} {op : Latch} (hl : s.latch = some op)
    (h : transition s = .next t) :
    t.phase = .idle ∨ (t.latch = some op ∧ (s.phase = .entry → entryError s op = none)) := by
  rcases transition_cases hl h with ⟨hp, rfl⟩ | ⟨_, e, _, rfl⟩ | ⟨_, hnone, rfl⟩ | ⟨hp, _, rfl⟩ |
    ⟨hp, _, _, h⟩ | ⟨hp, _, _, h⟩ | ⟨hp, rfl⟩ | ⟨hp, h⟩ | ⟨hp, h⟩ | ⟨_, _, rfl⟩ | ⟨_, _, rfl⟩
  · exact .inl hp
  · exact .inl rfl
  · exact .inr ⟨hl, fun _ => hnone⟩
  · simp [hp, hl]
  · simpa [hp, hl] using waitReady_latch h
  · simpa [hp, hl] using waitReady_latch h
  · simp [hp, hl]
  · simpa [hp, hl] using waitReady_latch h
  · obtain ⟨_, rfl⟩ | ⟨_, _, rfl⟩ := readingPhase_cases h <;> simp [hp, hl]
  · exact .inl rfl
  · exact .inl rfl

/-- A transition of a supplied block leaves it supplied. -/
theorem transition_supplied {s t : State} (hs : Supplied s) (h : transition s = .next t) :
    Supplied t := by
  rcases hs with h0 | ⟨op, hl, hs⟩
  · rw [transition_idle h0] at h
    cases h
    exact .inl h0
  rcases transition_latch hl h with hidle | ⟨hlatch, hchecks⟩
  · exact .inl hidle
  · obtain ⟨_, _, _, hparams, _⟩ := transition_frame h
    refine .inr ⟨op, hlatch, .inr ?_⟩
    rw [hparams]
    exact hs.elim (fun hp => capabilityMissing_of_entryError_none (hchecks hp)) id

/-- A run of a supplied block answers a next state. -/
theorem runTransitions_progress (fuel : Nat) {s : State} (hs : Supplied s) :
    ∃ t, runTransitions fuel s = .next t := by
  induction fuel generalizing s with
  | zero => exact ⟨s, rfl⟩
  | succ fuel ih =>
    obtain ⟨u, hu⟩ := transition_progress hs
    simp only [runTransitions, hu]
    split
    · exact ⟨u, rfl⟩
    · exact ih (transition_supplied hs hu)

/-- No operation stops, whatever state it is executed in: a sequence makes its entry checks before it
calls a capability. -/
theorem exec_progress (i : Instr) (s : State) : ∃ t, exec i s = .next t := by
  cases hq : sequenceOf i with
  | some op =>
    rw [exec_of_sequence hq]
    exact runTransitions_progress maxTransitions (.inr ⟨op, rfl, .inl rfl⟩)
  | none =>
    cases hsp : i.space with
    | wire =>
      obtain ⟨_, hb⟩ := exec_wire hsp s
      exact ⟨_, hb⟩
    | host =>
      cases hi : isInit i with
      | true =>
        obtain ⟨c, rfl⟩ := exists_init_of_isInit hi
        exact ⟨_, rfl⟩
      | false =>
        obtain ⟨proc, _, hexec⟩ := exec_hostOp hsp hi hq
        rw [hexec]
        exact exists_next_of_ite _ _ _

/-- A step of the idle block does not stop. -/
theorem step_idle_progress {s : State} (hp : s.phase = .idle) : ∃ t, step s = .next t := by
  cases hq : s.pending with
  | nil => exact ⟨s, step_no_request hp hq⟩
  | cons r rest =>
    cases hd : decode r with
    | error e => exact ⟨_, step_malformed hp hq hd⟩
    | ok i =>
      rw [step_decoded hp hq hd]
      exact exec_progress i _

/-- A sequence of the invariant has its capabilities bound. -/
theorem supplied_of_sequenceInv {s : State} {op : Latch} (h : SequenceInv s op) : Supplied s :=
  .inr ⟨op, h.latched, .inr (capabilityMissing_eq_false.mpr ⟨h.pollBound, h.xferBound⟩)⟩

/-! ## The queue has no influence on a running sequence (20_memory.md R55) -/

/-- A turn of a wait does not read the queue. -/
theorem waitReady_with_queue {first : Bool} {after : Phase} {s t : State} (queue : List Request)
    (h : waitReady first after s = .next t) :
    waitReady first after { s with pending := queue } = .next { t with pending := queue } := by
  obtain ⟨hc, ⟨hb, rfl⟩ | ⟨hb, rfl, hl⟩ | ⟨hb, rfl, limit, hl, hr⟩⟩ := waitReady_cases h
  · exact waitReady_ready (s := { s with pending := queue }) first after hc hb
  · exact waitReady_converting (s := { s with pending := queue }) first after hc hb hl
  · exact waitReady_timeout (s := { s with pending := queue }) first after limit hc hb hl hr

/-- `Configure(k)` does not read the queue. -/
theorem configure_with_queue (op : Latch) (s : State) (queue : List Request) :
    configure op { s with pending := queue } = { configure op s with pending := queue } := by
  unfold configure State.channelValue
  dsimp only
  split
  · rfl
  · split <;> rfl

/-- `advance` does not read the queue. -/
theorem State.advance_with_queue (s : State) (op : Latch) (queue : List Request) :
    ({ s with pending := queue } : State).advance op = { s.advance op with pending := queue } := by
  unfold State.advance
  dsimp only
  split <;> rfl

/-- A read does not read the queue. -/
theorem readingPhase_with_queue {op : Latch} {s t : State} (queue : List Request)
    (h : readingPhase op s = .next t) :
    readingPhase op { s with pending := queue } = .next { t with pending := queue } := by
  obtain ⟨hm, rfl⟩ | ⟨hm, hx, rfl⟩ := readingPhase_cases h <;> rw [← State.advance_with_queue]
  · simp only [readingPhase, hm, readPlain]
    rfl
  · simp only [readingPhase, hm, readPipelined, hx, if_true]
    rfl

/-- A transition does not read the queue. -/
theorem transition_with_queue {s t : State} (queue : List Request) (h : transition s = .next t) :
    transition { s with pending := queue } = .next { t with pending := queue } := by
  rcases transition_latched h with h0 | ⟨op, hl⟩
  · rw [transition_idle h0] at h
    cases h
    exact transition_idle (s := { s with pending := queue }) h0
  have hchecks : entryError { s with pending := queue } op = entryError s op := rfl
  rcases transition_cases hl h with ⟨hp, rfl⟩ | ⟨hp, _, herr, rfl⟩ | ⟨hp, herr, rfl⟩ | ⟨hp, hw, rfl⟩ |
    ⟨hp, hw, hwt, h⟩ | ⟨hp, hw, hwt, h⟩ | ⟨hp, rfl⟩ | ⟨hp, h⟩ | ⟨hp, h⟩ | ⟨hp, hm, rfl⟩ | ⟨hp, hm, rfl⟩
  · exact transition_idle (s := { t with pending := queue }) hp
  · rw [transition_entry (s := { s with pending := queue }) hp hl, entryPhase, hchecks, herr]
    rfl
  · rw [transition_entry (s := { s with pending := queue }) hp hl, entryPhase, hchecks, herr]
  · rw [transition_waking (s := { s with pending := queue }) hp hl, wakingPhase, if_neg (by simp [hw])]
  · rw [transition_waking (s := { s with pending := queue }) hp hl, wakingPhase, if_pos hw, if_pos hwt]
    exact waitReady_with_queue queue h
  · rw [transition_waking (s := { s with pending := queue }) hp hl, wakingPhase, if_pos hw,
      if_neg (by simp [hwt])]
    exact waitReady_with_queue queue h
  · rw [transition_configuring (s := { s with pending := queue }) hp hl, configuringPhase,
      configure_with_queue]
  · rw [transition_converting (s := { s with pending := queue }) hp hl]
    exact waitReady_with_queue queue h
  · rw [transition_reading (s := { s with pending := queue }) hp hl]
    exact readingPhase_with_queue queue h
  · rw [transition_restoring (s := { s with pending := queue }) hp hl, restoringPhase, hm]
    rfl
  · rw [transition_restoring (s := { s with pending := queue }) hp hl, restoringPhase, hm]
    rfl

/-- A run does not read the queue. -/
theorem runTransitions_with_queue {fuel : Nat} {s t : State} (queue : List Request)
    (h : runTransitions fuel s = .next t) :
    runTransitions fuel { s with pending := queue } = .next { t with pending := queue } := by
  induction fuel generalizing s with
  | zero =>
    obtain rfl : s = t := Outcome.next.inj h
    rfl
  | succ fuel ih =>
    cases hs : transition s with
    | fault f => simp [runTransitions, hs] at h
    | refused r => simp [runTransitions, hs] at h
    | next u =>
      have hs' := transition_with_queue queue hs
      simp only [runTransitions, hs] at h
      simp only [runTransitions, hs']
      split at h
      next hends =>
        obtain rfl : u = t := Outcome.next.inj h
        exact if_pos hends
      next hgoes =>
        rw [if_neg hgoes]
        exact ih h

/-- A run takes no request. -/
theorem runTransitions_pending {fuel : Nat} {s t : State} (h : runTransitions fuel s = .next t) :
    t.pending = s.pending := by
  refine runTransitions_rel (R := fun s t => t.pending = s.pending) (fun _ => rfl)
    (fun _ _ _ hst htu => htu.trans hst) (fun s t h => ?_) fuel s t h
  obtain ⟨_, _, _, _, hpending, _⟩ := transition_frame h
  exact hpending

/-! ## The conversion word of the reference environment (20_memory.md R43, R58) -/

/-- The value of a raw sample is its two's complement value (42_sample_decoder.md R150). -/
theorem sampleValue_eq_toInt (raw : RawSample) : sampleValue raw = raw.toInt := by
  rw [BitVec.toInt_eq_msb_cond, BitVec.msb_eq_getLsbD_last]
  rfl

/-- The sample decoder sign-extends the raw sample of its three bytes (42_sample_decoder.md R151). -/
theorem sdec_eq_signExtend (b0 b1 b2 : Byte) :
    sdec b0 b1 b2 = (rawSample b0 b1 b2).signExtend 32 := by
  rw [sdec, sampleValue_eq_toInt, BitVec.signExtend]

/-- The raw sample is its three bytes side by side (30_encoding.md R77). -/
theorem rawSample_eq_append (b0 b1 b2 : Byte) : rawSample b0 b1 b2 = b0 ++ b1 ++ b2 := by
  apply BitVec.eq_of_getLsbD_eq
  intro i hi
  simp only [rawSample, BitVec.getLsbD_or, BitVec.getLsbD_shiftLeft, BitVec.getLsbD_setWidth,
    BitVec.getLsbD_append]
  grind

/-- The bytes of a conversion word make up the word again (20_memory.md R43). -/
theorem rawSample_extract (w : RawSample) :
    rawSample (w.extractLsb' 16 8) (w.extractLsb' 8 8) (w.extractLsb' 0 8) = w := by
  rw [rawSample_eq_append, BitVec.extractLsb'_append_extractLsb'_eq_extractLsb' (by rfl),
    BitVec.extractLsb'_append_extractLsb'_eq_extractLsb' (by rfl)]
  simp

/-- A frame that opens with a received byte takes the next conversion word. -/
theorem ReferenceDevice.receive_opening {d : ReferenceDevice} {w : RawSample} {ws : List RawSample}
    (hw : d.words = w :: ws) : (d.select true).receive = (some (w.extractLsb' 16 8),
      { d with words := ws, pos := .done, shift := [w.extractLsb' 8 8, w.extractLsb' 0 8] }) := by
  obtain ⟨regs, words, polls, pos, shift⟩ := d
  cases hw
  rfl

/-- A byte the reference device serves is received, and the device stands behind it. -/
theorem Bus.rx_served {b : Bus} {d e : ReferenceDevice} {v : Byte} (h : b.env = .reference d)
    (hr : d.receive = (some v, e)) : b.rx.1 = v ∧ b.rx.2.env = .reference e := by
  simp [Bus.rx, h, Environment.receive, hr]

/-- A data read returns the device's next conversion word and leaves the words after it. -/
theorem Bus.rdata_reference_word {b : Bus} {p : Params} {d : ReferenceDevice} {w : RawSample}
    {ws : List RawSample} (he : b.env = .reference d) (hw : d.words = w :: ws) :
    (b.rdata p).1 = w.signExtend 32 ∧ ∃ e, (b.rdata p).2.env = .reference e ∧ e.words = ws := by
  have hopen : ((b.sel true).dly p.tCs).env = .reference (d.select true) := by
    rw [Bus.dly_env, Bus.sel_env, he]
    rfl
  obtain ⟨hv0, he0⟩ := Bus.rx_served hopen (ReferenceDevice.receive_opening hw)
  obtain ⟨hv1, he1⟩ := Bus.rx_served he0 rfl
  obtain ⟨hv2, he2⟩ := Bus.rx_served he1 rfl
  refine ⟨?_, _, congrArg (fun e => e.select false) he2, rfl⟩
  unfold Bus.rdata Bus.frame
  dsimp only
  rw [hv0, hv1, hv2, sdec_eq_signExtend, rawSample_extract]

/-- A host operation on an initialised handle runs its procedure (41_transport.md R131). -/
theorem exec_initialised {i : Instr} {proc : State → State} {s : State} (hs : s.inited = true)
    (hi : ∀ s, exec i s = hostOp s proc) : exec i s = .next (proc s).succeed :=
  (hi s).trans (if_pos hs)

/-! ## The obligations of 20_memory.md -/

/-- Settles O42: the idle block serves its port and no operation stops; a running sequence of the
invariant has the capabilities it calls. -/
theorem noStepCallsAnUnboundCapability : Obligations.NoStepCallsAnUnboundCapability := by
  unfold Obligations.NoStepCallsAnUnboundCapability
  intro s hinv
  rcases hinv.position with ⟨hp, _⟩ | ⟨op, hseq⟩
  · exact step_idle_progress hp
  · rw [step_of_sequenceInv hseq]
    exact runTransitions_progress maxTransitions (supplied_of_sequenceInv hseq)

/-- Settles O45: a busy block's step is a run of transitions, none of which reads or writes the queue. -/
theorem busyBlockTakesNoRequest : Obligations.BusyBlockTakesNoRequest := by
  unfold Obligations.BusyBlockTakesNoRequest
  intro s t queue hp h
  rw [step_busy hp] at h
  rw [step_busy (s := { s with pending := queue }) hp]
  exact ⟨runTransitions_pending h, runTransitions_with_queue queue h⟩

/-- Settles O43: the port takes the request and the step executes its operation. -/
theorem stepRunsTheDecodedOperation : Obligations.StepRunsTheDecodedOperation := by
  unfold Obligations.StepRunsTheDecodedOperation
  intro s r rest i hp hq hd
  exact step_decoded hp hq hd

/-- Settles O52: each operation is its procedure on an initialised handle, and each procedure does to
the reference device what 20_memory.md R58 says. -/
theorem referenceDeviceTakesTheWrites : Obligations.ReferenceDeviceTakesTheWrites := by
  unfold Obligations.ReferenceDeviceTakesTheWrites
  intro s regs hs hat
  refine ⟨⟨_, exec_initialised hs fun _ => rfl, Bus.resetDevice_reference hat⟩,
    ⟨_, exec_initialised hs fun _ => rfl, Bus.startSync_reference hat⟩,
    ⟨_, exec_initialised hs fun _ => rfl, Bus.powerDown_reference hat⟩,
    fun a => ⟨_, exec_initialised hs fun _ => rfl, Bus.rreg_reference a hat⟩,
    fun v0 v1 v2 v3 => ⟨_, exec_initialised hs fun _ => rfl, Bus.wreg4_reference ⟨v0, v1, v2, v3⟩ hat⟩,
    fun a v => ⟨_, exec_initialised hs fun _ => rfl, Bus.wreg1_reference a v hat⟩,
    fun c => ⟨_, rfl, Bus.wreg4_reference (enc c) (Bus.resetDevice_reference hat)⟩,
    fun c => ⟨_, exec_initialised hs fun _ => rfl, Bus.wreg4_reference (enc c) hat⟩,
    fun d w ws he hw => ?_⟩
  obtain ⟨hsample, e, henv, hwords⟩ := Bus.rdata_reference_word (p := s.params) he hw
  exact ⟨_, e, exec_initialised hs fun _ => rfl, Bus.rdata_reference hat, hsample, henv, hwords⟩

/-- Settles O53: the write leaves the device with the register written, and the read returns what the
device then holds there. -/
theorem referenceReadReturnsTheLastWrite : Obligations.ReferenceReadReturnsTheLastWrite := by
  unfold Obligations.ReferenceReadReturnsTheLastWrite
  intro s regs a b v hs hat
  have hwritten := Bus.wreg1_reference (p := s.params) a v hat
  obtain ⟨_, hread⟩ := Bus.rreg_reference (p := s.params) b hwritten
  refine ⟨_, _, exec_initialised hs fun _ => rfl, exec_initialised hs fun _ => rfl, ?_⟩
  rw [← DeviceRegs.read_write]
  exact hread

end Sys2Proof.Machine

namespace Sys2Proof

/-! ## Operand bytes (30_encoding.md R85) -/

/-- A byte that fits the width of its operand is `zext_8` of its low bits. -/
theorem operandByte_setWidth_of_fits {w : Nat} {b : Byte} (h : fits w b = true) :
    operandByte (b.setWidth w) = b := by
  have hlt : b.toNat < 2 ^ w := by simpa [fits] using h
  apply BitVec.eq_of_toNat_eq
  rw [operandByte, BitVec.toNat_setWidth, BitVec.toNat_setWidth, Nat.mod_eq_of_lt hlt,
    Nat.mod_eq_of_lt b.isLt]

@[simp] theorem setWidth_operandByte {w : Nat} (hw : w ≤ 8) (v : BitVec w) :
    (operandByte v).setWidth w = v := by
  simp [operandByte, BitVec.setWidth_setWidth_of_le, hw]

@[simp] theorem fits_operandByte (w : Nat) (v : BitVec w) : fits w (operandByte v) = true := by
  simpa [fits, operandByte] using (Nat.mod_le _ _).trans_lt v.isLt

/-! ## The operand bytes of each row: what a row's decoder accepts (30_encoding.md R85, R86) -/

theorem decodeConfiguration_eq_ok_iff {bytes : List Byte} {c : Configuration} :
    decodeConfiguration bytes = .ok c ↔ bytes = encodeConfiguration c := by
  constructor
  · intro h
    unfold decodeConfiguration at h
    split at h
    · split at h
      next hfits =>
        simp only [Bool.and_eq_true, and_assoc] at hfits
        obtain rfl := Except.ok.inj h
        simp [encodeConfiguration, operandByte_setWidth_of_fits, hfits]
      · cases h
    · cases h
  · rintro rfl
    simp [decodeConfiguration, encodeConfiguration]

theorem map_decodeConfiguration_eq_ok_iff {mk : Configuration → Instr} {bytes : List Byte}
    {i : Instr} :
    (decodeConfiguration bytes).map mk = .ok i ↔ ∃ c, i = mk c ∧ bytes = encodeConfiguration c := by
  simp only [← decodeConfiguration_eq_ok_iff]
  cases decodeConfiguration bytes <;> simp [Except.map, eq_comm]

theorem decodeBare_eq_ok_iff {i j : Instr} {bytes : List Byte} :
    decodeBare i bytes = .ok j ↔ j = i ∧ bytes = [] := by
  cases bytes <;> simp [decodeBare, eq_comm]

theorem decodeRreg_eq_ok_iff {bytes : List Byte} {i : Instr} :
    decodeRreg bytes = .ok i ↔ ∃ a, i = .rreg a ∧ bytes = [operandByte a] := by
  constructor
  · intro h
    unfold decodeRreg at h
    split at h
    · split at h
      next hfits => exact ⟨_, (Except.ok.inj h).symm, by rw [operandByte_setWidth_of_fits hfits]⟩
      · cases h
    · cases h
  · rintro ⟨a, rfl, rfl⟩
    simp [decodeRreg]

theorem decodeWreg4_eq_ok_iff {bytes : List Byte} {i : Instr} :
    decodeWreg4 bytes = .ok i ↔ ∃ v0 v1 v2 v3, i = .wreg4 v0 v1 v2 v3 ∧ bytes = [v0, v1, v2, v3] := by
  constructor
  · intro h
    unfold decodeWreg4 at h
    split at h
    · exact ⟨_, _, _, _, (Except.ok.inj h).symm, rfl⟩
    · cases h
  · rintro ⟨v0, v1, v2, v3, rfl, rfl⟩
    rfl

theorem decodeWreg1_eq_ok_iff {bytes : List Byte} {i : Instr} :
    decodeWreg1 bytes = .ok i ↔ ∃ a v, i = .wreg1 a v ∧ bytes = [operandByte a, v] := by
  constructor
  · intro h
    unfold decodeWreg1 at h
    split at h
    · split at h
      next hfits => exact ⟨_, _, (Except.ok.inj h).symm, by rw [operandByte_setWidth_of_fits hfits]⟩
      · cases h
    · cases h
  · rintro ⟨a, v, rfl, rfl⟩
    simp [decodeWreg1]

theorem checked_eq_ok_iff {i j : Instr} : checked i = .ok j ↔ j = i ∧ i.wf = true := by
  unfold checked
  split <;> simp [*, eq_comm]

theorem decodeOverride2_eq_ok_iff {mk : BitVec 2 → GainCode → GainCode → Instr} {bytes : List Byte}
    {i : Instr} :
    decodeOverride2 mk bytes = .ok i ↔ ∃ ovm g0 g1, i = mk ovm g0 g1 ∧ (mk ovm g0 g1).wf = true ∧
      bytes = [operandByte ovm, operandByte g0, operandByte g1] := by
  constructor
  · intro h
    unfold decodeOverride2 at h
    split at h
    · split at h
      next hfits =>
        simp only [Bool.and_eq_true, and_assoc] at hfits
        obtain ⟨hi, hwf⟩ := checked_eq_ok_iff.1 h
        exact ⟨_, _, _, hi, hwf, by simp [operandByte_setWidth_of_fits, hfits]⟩
      · cases h
    · cases h
  · rintro ⟨ovm, g0, g1, rfl, hwf, rfl⟩
    simp [decodeOverride2, checked_eq_ok_iff, hwf]

theorem decodeOverride4_eq_ok_iff
    {mk : BitVec 4 → GainCode → GainCode → GainCode → GainCode → Instr} {bytes : List Byte}
    {i : Instr} :
    decodeOverride4 mk bytes = .ok i ↔
      ∃ ovm g0 g1 g2 g3, i = mk ovm g0 g1 g2 g3 ∧ (mk ovm g0 g1 g2 g3).wf = true ∧
        bytes = [operandByte ovm, operandByte g0, operandByte g1, operandByte g2, operandByte g3] := by
  constructor
  · intro h
    unfold decodeOverride4 at h
    split at h
    · split at h
      next hfits =>
        simp only [Bool.and_eq_true, and_assoc] at hfits
        obtain ⟨hi, hwf⟩ := checked_eq_ok_iff.1 h
        exact ⟨_, _, _, _, _, hi, hwf, by simp [operandByte_setWidth_of_fits, hfits]⟩
      · cases h
    · cases h
  · rintro ⟨ovm, g0, g1, g2, g3, rfl, hwf, rfl⟩
    simp [decodeOverride4, checked_eq_ok_iff, hwf]

/-! ## The host space (30_encoding.md R85) -/

theorem eq_ofNat_of_toNat_eq {b : Byte} {n : Nat} (h : b.toNat = n) : b = BitVec.ofNat 8 n := by
  rw [← h, BitVec.ofNat_toNat, BitVec.setWidth_eq]

/-- Each opcode's row accepts only what the encoder writes for that row. -/
theorem encodeBytes_of_decodeHost {bytes : List Byte} {i : Instr} (h : decodeHost bytes = .ok i) :
    i.space = .host ∧ i.wf = true ∧ encodeBytes i = bytes := by
  unfold decodeHost at h
  split at h
  · cases h
  next op operands =>
    split at h
    case h_1 hop | h_2 hop =>
      obtain rfl := eq_ofNat_of_toNat_eq hop
      obtain ⟨c, rfl, rfl⟩ := map_decodeConfiguration_eq_ok_iff.1 h
      exact ⟨rfl, rfl, rfl⟩
    case h_3 hop | h_4 hop | h_5 hop | h_9 hop =>
      obtain rfl := eq_ofNat_of_toNat_eq hop
      obtain ⟨rfl, rfl⟩ := decodeBare_eq_ok_iff.1 h
      exact ⟨rfl, rfl, rfl⟩
    case h_6 hop =>
      obtain rfl := eq_ofNat_of_toNat_eq hop
      obtain ⟨a, rfl, rfl⟩ := decodeRreg_eq_ok_iff.1 h
      exact ⟨rfl, rfl, rfl⟩
    case h_7 hop =>
      obtain rfl := eq_ofNat_of_toNat_eq hop
      obtain ⟨v0, v1, v2, v3, rfl, rfl⟩ := decodeWreg4_eq_ok_iff.1 h
      exact ⟨rfl, rfl, rfl⟩
    case h_8 hop =>
      obtain rfl := eq_ofNat_of_toNat_eq hop
      obtain ⟨a, v, rfl, rfl⟩ := decodeWreg1_eq_ok_iff.1 h
      exact ⟨rfl, rfl, rfl⟩
    case h_10 hop | h_11 hop =>
      obtain rfl := eq_ofNat_of_toNat_eq hop
      obtain ⟨ovm, g0, g1, rfl, hwf, rfl⟩ := decodeOverride2_eq_ok_iff.1 h
      exact ⟨rfl, hwf, rfl⟩
    case h_12 hop | h_13 hop =>
      obtain rfl := eq_ofNat_of_toNat_eq hop
      obtain ⟨ovm, g0, g1, g2, g3, rfl, hwf, rfl⟩ := decodeOverride4_eq_ok_iff.1 h
      exact ⟨rfl, hwf, rfl⟩
    case h_14 => cases h

theorem decodeHost_encodeBytes {i : Instr} (hs : i.space = .host) (hwf : i.wf = true) :
    decodeHost (encodeBytes i) = .ok i := by
  cases i with
  | wReset | wStart | wPwrdn | wRreg | wWreg4 | wWreg1 => cases hs
  | init c => exact map_decodeConfiguration_eq_ok_iff.2 ⟨c, rfl, rfl⟩
  | config c => exact map_decodeConfiguration_eq_ok_iff.2 ⟨c, rfl, rfl⟩
  | reset | start | pwrdn | rdata => rfl
  | rreg a => exact decodeRreg_eq_ok_iff.2 ⟨a, rfl, rfl⟩
  | wreg4 v0 v1 v2 v3 => rfl
  | wreg1 a v => exact decodeWreg1_eq_ok_iff.2 ⟨a, v, rfl, rfl⟩
  | rdallDSs ovm g0 g1 => exact decodeOverride2_eq_ok_iff.2 ⟨ovm, g0, g1, rfl, hwf, rfl⟩
  | rdallDCc ovm g0 g1 => exact decodeOverride2_eq_ok_iff.2 ⟨ovm, g0, g1, rfl, hwf, rfl⟩
  | rdallSSs ovm g0 g1 g2 g3 =>
    exact decodeOverride4_eq_ok_iff.2 ⟨ovm, g0, g1, g2, g3, rfl, hwf, rfl⟩
  | rdallSCc ovm g0 g1 g2 g3 =>
    exact decodeOverride4_eq_ok_iff.2 ⟨ovm, g0, g1, g2, g3, rfl, hwf, rfl⟩

/-! ## The wire space (30_encoding.md R72 to R74) -/

/-- The address field of a command byte, put back in its place. -/
theorem operandByte_commandAddress_shift (b : Byte) :
    operandByte (commandAddress b) <<< 2 = b &&& 0x0C := by
  ext i hi
  interval_cases i <;> simp [operandByte, commandAddress]

/-- A byte that matches a pattern in every bit outside the address field is the pattern with the byte's
address. -/
theorem pattern_or_commandAddress {b pattern : Byte} (h : b &&& 0xF3 = pattern) :
    pattern ||| (operandByte (commandAddress b) <<< 2) = b := by
  calc pattern ||| (operandByte (commandAddress b) <<< 2)
      = (b &&& 0xF3) ||| (b &&& 0x0C) := by rw [h, operandByte_commandAddress_shift]
    _ = b &&& (0xF3 ||| 0x0C) := by rw [BitVec.and_or_distrib_left]
    _ = b := BitVec.and_allOnes

/-- A mask of all ones selects its pattern only. -/
theorem eq_of_masked_allOnes {b pattern : Byte} (h : (b &&& 0xFF == pattern) = true) : b = pattern :=
  (BitVec.and_allOnes (x := b)).symm.trans (eq_of_beq h)

/-- Each command byte carries its row and its address, and nothing else. -/
theorem encodeBytes_of_decodeWire {bytes : List Byte} {i : Instr} (h : decodeWire bytes = .ok i) :
    i.space = .wire ∧ i.wf = true ∧ encodeBytes i = bytes := by
  unfold decodeWire at h
  split at h
  · cases h
  next cmd rest =>
    split_ifs at h with h06 h08 h02 h20 h43 h40
    · obtain rfl := eq_of_masked_allOnes h06
      obtain ⟨rfl, rfl⟩ := decodeBare_eq_ok_iff.1 h
      exact ⟨rfl, rfl, rfl⟩
    · obtain rfl := eq_of_masked_allOnes h08
      obtain ⟨rfl, rfl⟩ := decodeBare_eq_ok_iff.1 h
      exact ⟨rfl, rfl, rfl⟩
    · obtain rfl := eq_of_masked_allOnes h02
      obtain ⟨rfl, rfl⟩ := decodeBare_eq_ok_iff.1 h
      exact ⟨rfl, rfl, rfl⟩
    · obtain ⟨rfl, rfl⟩ := decodeBare_eq_ok_iff.1 h
      exact ⟨rfl, rfl, congrArg ([·]) (pattern_or_commandAddress (eq_of_beq h20))⟩
    · obtain rfl := eq_of_masked_allOnes h43
      split at h
      · obtain rfl := Except.ok.inj h
        exact ⟨rfl, rfl, rfl⟩
      · cases h
    · split at h
      next v =>
        obtain rfl := Except.ok.inj h
        exact ⟨rfl, rfl, congrArg ([·, v]) (pattern_or_commandAddress (eq_of_beq h40))⟩
      · cases h

theorem regAddr_cases (a : RegAddr) : a = 0 ∨ a = 1 ∨ a = 2 ∨ a = 3 := by
  revert a; decide

theorem decodeWire_readCommand (a : RegAddr) (rest : List Byte) :
    decodeWire (readCommand a :: rest) = decodeBare (.wRreg a) rest := by
  rcases regAddr_cases a with rfl | rfl | rfl | rfl <;> rfl

theorem decodeWire_writeCommand (a : RegAddr) (v : Byte) :
    decodeWire [writeCommand a, v] = .ok (.wWreg1 a v) := by
  rcases regAddr_cases a with rfl | rfl | rfl | rfl <;> rfl

theorem decodeWire_encodeBytes {i : Instr} (hs : i.space = .wire) :
    decodeWire (encodeBytes i) = .ok i := by
  cases i with
  | wReset | wStart | wPwrdn => rfl
  | wRreg a => exact decodeWire_readCommand a []
  | wWreg4 v0 v1 v2 v3 => rfl
  | wWreg1 a v => exact decodeWire_writeCommand a v
  | init | config | reset | start | pwrdn | rreg | wreg4 | wreg1 | rdata => cases hs
  | rdallDSs | rdallDCc | rdallSSs | rdallSCc => cases hs

/-! ## Both spaces -/

/-- Decoding and encoding are inverse to each other on the well-formed operations
(30_encoding.md R89). -/
theorem decode_eq_ok_iff {r : Request} {i : Instr} :
    decode r = .ok i ↔ i.wf = true ∧ encode i = r := by
  constructor
  · intro h
    obtain ⟨space, bytes⟩ := r
    cases space with
    | host =>
      obtain ⟨hs, hwf, hb⟩ := encodeBytes_of_decodeHost h
      exact ⟨hwf, by rw [encode, hs, hb]⟩
    | wire =>
      obtain ⟨hs, hwf, hb⟩ := encodeBytes_of_decodeWire h
      exact ⟨hwf, by rw [encode, hs, hb]⟩
  · rintro ⟨hwf, rfl⟩
    cases hs : i.space with
    | host => simpa [decode, encode, hs] using decodeHost_encodeBytes hs hwf
    | wire => simpa [decode, encode, hs] using decodeWire_encodeBytes hs

/-- Settles O6: the encoding of a well-formed operation is a request that decodes to it. -/
theorem decodeOfEncodeGivesTheOperationBack : Obligations.DecodeOfEncodeGivesTheOperationBack := by
  unfold Obligations.DecodeOfEncodeGivesTheOperationBack
  exact fun i hwf => decode_eq_ok_iff.2 ⟨hwf, rfl⟩

/-- Settles O7: each row's decoder accepts exactly the operand bytes its encoder writes. -/
theorem everyDecodedRequestIsAnEncoding : Obligations.EveryDecodedRequestIsAnEncoding := by
  unfold Obligations.EveryDecodedRequestIsAnEncoding
  exact fun r i h => decode_eq_ok_iff.1 h

/-! ## The wire table and the words of the opcode table -/

/-- Two rows whose patterns differ where both masks look select no byte in common. -/
def WireRow.Apart (row other : WireRow) : Prop :=
  row.pattern &&& other.mask ≠ other.pattern &&& row.mask

theorem WireRow.Apart.not_selects_both {row other : WireRow} (h : row.Apart other) {b : Byte}
    (hrow : row.selects b = true) (hother : other.selects b = true) : False := by
  apply h
  rw [← eq_of_beq hrow, ← eq_of_beq hother, BitVec.and_assoc, BitVec.and_assoc,
    BitVec.and_comm row.mask]

/-- The rows of 30_encoding.md R72 are apart from one another. -/
theorem wireRows_apart : wireRows.Pairwise WireRow.Apart := by
  unfold WireRow.Apart wireRows
  decide

/-- Settles O8: the rows are pairwise apart, so no two of those that select a byte remain. -/
theorem noWireByteSelectsTwoRows : Obligations.NoWireByteSelectsTwoRows := by
  unfold Obligations.NoWireByteSelectsTwoRows
  intro b
  have hapart := wireRows_apart.filter (fun row => row.selects b)
  have hsel : ∀ row ∈ wireRows.filter (fun row => row.selects b), row.selects b = true :=
    fun row hrow => (List.mem_filter.1 hrow).2
  generalize wireRows.filter (fun row => row.selects b) = selected at hapart hsel ⊢
  match selected with
  | [] | [_] => simp
  | row :: other :: rows =>
    exact ((List.rel_of_pairwise_cons hapart List.mem_cons_self).not_selects_both
      (hsel row (by simp)) (hsel other (by simp))).elim

theorem decodeTableWord_of_encode {nbits w : Nat} {i : Instr} (hwf : i.wf = true)
    (h : tableRequest nbits w = encode i) : decodeTableWord nbits w = some i := by
  rw [decodeTableWord, decode_eq_ok_iff.2 ⟨hwf, h.symm⟩]
  rfl

/-- Settles O9: eight words are read as the request of their operation; the ninth gives channel 2 a
gain although bit 2 of its mask is clear. -/
theorem sampleWordsDecodeToTheirOperations : Obligations.SampleWordsDecodeToTheirOperations := by
  unfold Obligations.SampleWordsDecodeToTheirOperations
  refine ⟨?_, ?_, ?_, ?_, ?_, ?_, ?_, rfl, ?_⟩
  all_goals exact decodeTableWord_of_encode (by decide) (by decide)

end Sys2Proof

namespace Sys2Proof.Machine

open Sys2Proof.Safety

/-! ## The override operand (30_encoding.md R86) -/

theorem gainAllowed_iff (overridden : Bool) (g : GainCode) :
    gainAllowed overridden g = true ↔ (overridden = false → g = 0) := by
  cases overridden <;> simp [gainAllowed]

theorem overrideWf2_iff (ovm : BitVec 2) (g0 g1 : GainCode) :
    overrideWf2 ovm g0 g1 = true ↔
      (ovm.getLsbD 0 = false → g0 = 0) ∧ (ovm.getLsbD 1 = false → g1 = 0) := by
  simp only [overrideWf2, Bool.and_eq_true, gainAllowed_iff]

theorem overrideWf4_iff (ovm : BitVec 4) (g0 g1 g2 g3 : GainCode) :
    overrideWf4 ovm g0 g1 g2 g3 = true ↔
      (ovm.getLsbD 0 = false → g0 = 0) ∧ (ovm.getLsbD 1 = false → g1 = 0) ∧
      (ovm.getLsbD 2 = false → g2 = 0) ∧ (ovm.getLsbD 3 = false → g3 = 0) := by
  simp only [overrideWf4, Bool.and_eq_true, gainAllowed_iff, and_assoc]

/-- Settles O12: the latch of a sequence holds the override of each channel, and the two operations of
a topology have the well-formedness of its operand. -/
theorem overrideOperandFollowsItsMask : Obligations.OverrideOperandFollowsItsMask := by
  unfold Obligations.OverrideOperandFollowsItsMask
  exact ⟨fun mode ovm g0 g1 => ⟨rfl, rfl, rfl, rfl, rfl, rfl⟩,
    fun mode ovm g0 g1 g2 g3 => ⟨rfl, rfl, rfl, rfl, rfl, rfl⟩,
    fun ovm g0 g1 => ⟨overrideWf2_iff ovm g0 g1, overrideWf2_iff ovm g0 g1⟩,
    fun ovm g0 g1 g2 g3 => ⟨overrideWf4_iff ovm g0 g1 g2 g3, overrideWf4_iff ovm g0 g1 g2 g3⟩⟩

/-! ## The wire commands and the malformed request -/

/-- Settles O22: each wire command is its transport procedure, which appends its frame; the byte read
back is the next one the environment scripts. -/
theorem wireCommandsEmitTheirFrames : Obligations.WireCommandsEmitTheirFrames := by
  unfold Obligations.WireCommandsEmitTheirFrames
  intro s
  refine ⟨⟨_, rfl, s.bus.resetDevice_trace s.params⟩, ⟨_, rfl, s.bus.startSync_trace s.params⟩,
    ⟨_, rfl, s.bus.powerDown_trace s.params⟩,
    fun a => ⟨_, _, rfl, s.bus.rreg_trace s.params a, fun w bytes polls later henv => ?_⟩,
    fun v0 v1 v2 v3 => ⟨_, rfl, s.bus.wreg4_trace s.params ⟨v0, v1, v2, v3⟩⟩,
    fun a v => ⟨_, rfl, s.bus.wreg1_trace s.params a v⟩⟩
  rw [Bus.rreg_script _ _ _ _ _ _ _ henv]

/-- Settles O44: the port drops a malformed request. -/
theorem malformedRequestHasNoEffect : Obligations.MalformedRequestHasNoEffect := by
  unfold Obligations.MalformedRequestHasNoEffect
  exact fun s r rest e hp hq hd => step_malformed hp hq hd

end Sys2Proof.Machine

namespace Sys2Proof.Machine

/-! ## The layouts of the register bytes (40_codec.md R100, R106)

The rules of `++` need to read a width as the sum of the widths of its parts, so `simp` must not add
the numerals up. -/

/-- Register 0 of `ENC` is `ENC0` of its three fields. -/
theorem enc_b0 (c : Configuration) : (enc c).b0 = enc0 c.mux c.gain c.pgaBypass := rfl

theorem enc0_eq_append (mux : MuxCode) (gain : GainCode) (byp : BitVec 1) :
    enc0 mux gain byp = mux ++ gain ++ byp := by
  rw [← BitVec.setWidth_eq (mux ++ gain ++ byp),
    BitVec.setWidth_append_append_eq_shiftLeft_setWidth_or]
  rfl

theorem enc_b1_eq_append (c : Configuration) :
    (enc c).b1 = c.dr ++ c.opMode ++ c.convMode ++ c.tempSensor ++ c.burnout := by
  rw [← BitVec.setWidth_eq (c.dr ++ c.opMode ++ c.convMode ++ c.tempSensor ++ c.burnout)]
  simp only [BitVec.setWidth_append_eq_shiftLeft_setWidth_or, BitVec.shiftLeft_or_distrib,
    ← BitVec.shiftLeft_add]
  rfl

theorem enc_b2_eq_append (c : Configuration) :
    (enc c).b2 = c.vref ++ c.fir ++ c.psw ++ c.idac := by
  rw [← BitVec.setWidth_eq (c.vref ++ c.fir ++ c.psw ++ c.idac),
    BitVec.setWidth_append_append_append_eq_shiftLeft_setWidth_or]
  rfl

theorem enc_b3_eq_append (c : Configuration) :
    (enc c).b3 = c.i1mux ++ c.i2mux ++ c.drdyMode ++ 0#1 := by
  rw [← BitVec.setWidth_eq (c.i1mux ++ c.i2mux ++ c.drdyMode ++ 0#1),
    BitVec.setWidth_append_append_append_eq_shiftLeft_setWidth_or, BitVec.setWidth_zero,
    BitVec.or_zero]
  rfl

/-! ## The round trip (40_codec.md R103) -/

theorem RegBytes.eq_iff {a b : RegBytes} :
    a = b ↔ a.b0 = b.b0 ∧ a.b1 = b.b1 ∧ a.b2 = b.b2 ∧ a.b3 = b.b3 := by
  cases a
  cases b
  exact Iff.of_eq (RegBytes.mk.injEq ..)

theorem dec0_enc0 (mux : MuxCode) (gain : GainCode) (byp : BitVec 1) :
    dec0 (enc0 mux gain byp) = (mux, gain, byp) := by
  rw [enc0_eq_append]
  simp [-Nat.reduceAdd, dec0, BitVec.extractLsb'_append_eq_of_le,
    BitVec.extractLsb'_append_eq_of_add_le]

/-- `DEC` finds each field where the layout of its byte puts it. -/
theorem dec_enc (c : Configuration) : dec (enc c) = c := by
  rw [dec, enc_b0, enc0_eq_append, enc_b1_eq_append, enc_b2_eq_append, enc_b3_eq_append]
  simp [-Nat.reduceAdd, BitVec.extractLsb'_append_eq_of_le,
    BitVec.extractLsb'_append_eq_of_add_le]

/-- A byte with a 0 in place of its lowest bit is the byte masked with `0xFE`. -/
theorem extractLsb'_append_zero (b : Byte) : b.extractLsb' 1 7 ++ 0#1 = b &&& 0xFE := by
  have hsplit : b.extractLsb' 1 7 ++ b.extractLsb' 0 1 = b :=
    BitVec.extractLsb'_append_extractLsb'
  calc b.extractLsb' 1 7 ++ 0#1
      = (b.extractLsb' 1 7 ++ b.extractLsb' 0 1) &&& (BitVec.allOnes 7 ++ 0#1) := by
        rw [BitVec.and_append, BitVec.and_allOnes, BitVec.and_zero]
    _ = b &&& 0xFE := by
        rw [hsplit]
        rfl

/-- The fields `DEC` cuts out of a byte lie side by side, so they make up the byte again; of register
3 they are the upper seven bits. -/
theorem enc_dec (b : RegBytes) : enc (dec b) = { b with b3 := b.b3 &&& 0xFE } := by
  rw [RegBytes.eq_iff, enc_b0, enc0_eq_append, enc_b1_eq_append, enc_b2_eq_append,
    enc_b3_eq_append, ← extractLsb'_append_zero]
  simp only [dec, BitVec.extractLsb'_append_extractLsb'_eq_extractLsb', BitVec.extractLsb'_eq_self,
    and_self]

/-- Settles O1: the layouts put the fields side by side, so cutting a byte apart and joining its fields
undo each other, but for the unused bit of register 3. -/
theorem codecRoundTripKeepsEveryField : Obligations.CodecRoundTripKeepsEveryField := by
  unfold Obligations.CodecRoundTripKeepsEveryField
  exact ⟨fun c => dec0_enc0 c.mux c.gain c.pgaBypass, dec_enc, enc_dec⟩

/-- Settles O2: both functions shift the same three fields to the same places. -/
theorem registerZeroPartOfEncIsEnc0 : Obligations.RegisterZeroPartOfEncIsEnc0 := by
  unfold Obligations.RegisterZeroPartOfEncIsEnc0
  exact ⟨enc_b0, enc0_eq_append⟩

/-- Settles O3: shifting the fields apart and joining them with or is writing them side by side. -/
theorem encPacksRegistersOneToThree : Obligations.EncPacksRegistersOneToThree := by
  unfold Obligations.EncPacksRegistersOneToThree
  exact fun c => ⟨enc_b1_eq_append c, enc_b2_eq_append c, enc_b3_eq_append c⟩

end Sys2Proof.Machine

namespace Sys2Proof.Machine

open Sys2Proof.Safety
open Host (Outcome)

/-! ## Traces of whole frames (41_transport.md R132)

A procedure appends one whole frame, or the held reset; a poll is one event outside every frame. So
each keeps a trace made of whole frames, and with them every meaning built from them. -/

theorem Bus.startSync_framed {b : Bus} {p : Params} (h : Framed p b.trace) :
    Framed p (b.startSync p).trace := by
  rw [Bus.startSync_trace]
  exact .frame _ _ nofun h

theorem Bus.powerDown_framed {b : Bus} {p : Params} (h : Framed p b.trace) :
    Framed p (b.powerDown p).trace := by
  rw [Bus.powerDown_trace]
  exact .frame _ _ nofun h

theorem Bus.resetDevice_framed {b : Bus} {p : Params} (h : Framed p b.trace) :
    Framed p (b.resetDevice p).trace := by
  rw [Bus.resetDevice_trace]
  exact .reset _ h

theorem Bus.rreg_framed {b : Bus} {p : Params} (a : RegAddr) (h : Framed p b.trace) :
    Framed p (b.rreg p a).2.trace := by
  rw [Bus.rreg_trace]
  exact .frame _ _ nofun h

theorem Bus.wreg4_framed {b : Bus} {p : Params} (v : RegBytes) (h : Framed p b.trace) :
    Framed p (b.wreg4 p v).trace := by
  rw [Bus.wreg4_trace]
  exact .frame _ _ nofun h

theorem Bus.wreg1_framed {b : Bus} {p : Params} (a : RegAddr) (v : Byte) (h : Framed p b.trace) :
    Framed p (b.wreg1 p a v).trace := by
  rw [Bus.wreg1_trace]
  exact .frame _ _ nofun h

theorem Bus.rdata_framed {b : Bus} {p : Params} (h : Framed p b.trace) :
    Framed p (b.rdata p).2.trace := by
  obtain ⟨_, _, _, _, htrace⟩ := b.rdata_spec p
  rw [htrace]
  exact .frame _ _ nofun h

theorem Bus.xrdwr_framed {b : Bus} {p : Params} (v : Byte) (h : Framed p b.trace) :
    Framed p (b.xrdwr p v).2.trace := by
  obtain ⟨_, _, _, _, htrace⟩ := b.xrdwr_spec p v
  rw [htrace]
  exact .frame _ _ nofun h

theorem Bus.poll_framed {b : Bus} {p : Params} (h : Framed p b.trace) : Framed p b.poll.2.trace := by
  rw [Bus.poll_trace]
  exact .poll _ _ h

/-- The trace of the block is made of whole frames, held resets and polls. -/
def WholeFrames (s : State) : Prop := Framed s.params s.bus.trace

/-- The Configuring step sends one frame or none (43_sequencer.md R168). -/
theorem configure_wholeFrames {s : State} (op : Latch) (hs : WholeFrames s) :
    WholeFrames (configure op s) := by
  unfold configure
  dsimp only
  split
  · exact hs
  · split
    · exact Bus.wreg1_framed _ _ hs
    · exact Bus.startSync_framed hs

/-- A turn of a wait polls once, whether it ends ready, converting or in a timeout. -/
theorem waitReady_wholeFrames {first : Bool} {after : Phase} {s t : State}
    (h : waitReady first after s = .next t) (hs : WholeFrames s) : WholeFrames t := by
  obtain ⟨_, ⟨_, rfl⟩ | ⟨_, rfl, _⟩ | ⟨_, rfl, _⟩⟩ := waitReady_cases h <;>
    exact Bus.poll_framed hs

/-- A read is one frame in either mode (43_sequencer.md R170, R171). -/
theorem readingPhase_wholeFrames {op : Latch} {s t : State} (h : readingPhase op s = .next t)
    (hs : WholeFrames s) : WholeFrames t := by
  obtain ⟨_, rfl⟩ | ⟨_, _, rfl⟩ := readingPhase_cases h <;> unfold WholeFrames <;>
    simp only [State.advance_bus, State.advance_params, State.store_bus, State.store_params]
  · exact Bus.rdata_framed hs
  · exact Bus.xrdwr_framed _ hs

theorem transition_wholeFrames {s t : State} (h : transition s = .next t) (hs : WholeFrames s) :
    WholeFrames t := by
  rcases transition_latched h with h0 | ⟨op, hl⟩
  · rw [transition_idle h0] at h
    cases h
    exact hs
  rcases transition_cases hl h with ⟨_, rfl⟩ | ⟨_, e, _, rfl⟩ | ⟨_, _, rfl⟩ | ⟨_, _, rfl⟩ |
    ⟨_, _, _, h⟩ | ⟨_, _, _, h⟩ | ⟨_, rfl⟩ | ⟨_, h⟩ | ⟨_, h⟩ | ⟨_, _, rfl⟩ | ⟨_, _, rfl⟩
  · exact hs
  · exact hs
  · exact Bus.rreg_framed 0 hs
  · exact hs
  · exact waitReady_wholeFrames h hs
  · exact waitReady_wholeFrames h (Bus.startSync_framed hs)
  · exact configure_wholeFrames op hs
  · exact waitReady_wholeFrames h hs
  · exact readingPhase_wholeFrames h hs
  · exact Bus.wreg1_framed 0 s.orig hs
  · exact hs

theorem runTransitions_wholeFrames {fuel : Nat} {s t : State}
    (h : runTransitions fuel s = .next t) : WholeFrames s → WholeFrames t :=
  runTransitions_rel (R := fun s t => WholeFrames s → WholeFrames t) (fun _ => id)
    (fun _ _ _ hst htu => htu ∘ hst) (fun _ _ => transition_wholeFrames) fuel s t h

/-- The host wrapper adds no event to those of its procedure (41_transport.md R131). -/
theorem exec_hostOp_wholeFrames {i : Instr} {proc : State → State} {s t : State}
    (h : exec i s = .next t) (hi : ∀ s, exec i s = hostOp s proc) (hs : WholeFrames s)
    (hproc : WholeFrames (proc s)) : WholeFrames t := by
  rcases hostOp_cases ((hi s).symm.trans h) with rfl | rfl
  · exact hproc
  · exact hs

/-- Every operation, in either space, is a procedure or a run of transitions. -/
theorem exec_wholeFrames {i : Instr} {s t : State} (h : exec i s = .next t) (hs : WholeFrames s) :
    WholeFrames t := by
  cases hq : sequenceOf i with
  | some op =>
    rw [exec_of_sequence hq] at h
    exact runTransitions_wholeFrames (s := s.accept op) h hs
  | none =>
    cases i with
    | wReset => cases h; exact Bus.resetDevice_framed hs
    | wStart => cases h; exact Bus.startSync_framed hs
    | wPwrdn => cases h; exact Bus.powerDown_framed hs
    | wRreg a => cases h; exact Bus.rreg_framed a hs
    | wWreg4 v0 v1 v2 v3 => cases h; exact Bus.wreg4_framed ⟨v0, v1, v2, v3⟩ hs
    | wWreg1 a v => cases h; exact Bus.wreg1_framed a v hs
    | init c => cases h; exact Bus.wreg4_framed (enc c) (Bus.resetDevice_framed hs)
    | config c => exact exec_hostOp_wholeFrames h (fun _ => rfl) hs (Bus.wreg4_framed (enc c) hs)
    | reset => exact exec_hostOp_wholeFrames h (fun _ => rfl) hs (Bus.resetDevice_framed hs)
    | start => exact exec_hostOp_wholeFrames h (fun _ => rfl) hs (Bus.startSync_framed hs)
    | pwrdn => exact exec_hostOp_wholeFrames h (fun _ => rfl) hs (Bus.powerDown_framed hs)
    | rreg a => exact exec_hostOp_wholeFrames h (fun _ => rfl) hs (Bus.rreg_framed a hs)
    | wreg4 v0 v1 v2 v3 =>
      exact exec_hostOp_wholeFrames h (fun _ => rfl) hs (Bus.wreg4_framed ⟨v0, v1, v2, v3⟩ hs)
    | wreg1 a v => exact exec_hostOp_wholeFrames h (fun _ => rfl) hs (Bus.wreg1_framed a v hs)
    | rdata => exact exec_hostOp_wholeFrames h (fun _ => rfl) hs (Bus.rdata_framed hs)
    | rdallDSs | rdallDCc | rdallSSs | rdallSCc => cases hq

/-- Settles O48: the idle block serves its port, a running sequence goes on by transitions, and each
of them moves bytes by whole procedures only. -/
theorem everyStepEmitsWholeFrames : Obligations.EveryStepEmitsWholeFrames := by
  unfold Obligations.EveryStepEmitsWholeFrames
  intro s t h hs
  rcases step_cases h with ⟨_, _, rfl⟩ | ⟨r, rest, e, _, _, _, rfl⟩ | ⟨r, rest, i, _, _, _, hexec⟩ |
    ⟨_, hrun⟩
  · exact hs
  · exact hs
  · exact exec_wholeFrames (s := { s with pending := rest }) hexec hs
  · exact runTransitions_wholeFrames hrun hs

/-! ## A turn of a running wait (41_transport.md R130) -/

/-- The transition of a sequence that waits is the next turn of its wait. -/
theorem transition_of_sequenceInv {s : State} {op : Latch} (h : SequenceInv s op) :
    ∃ after, transition s = waitReady false after s := by
  rcases h.position with ⟨hp, hwake, _⟩ | ⟨hp, _⟩
  · refine ⟨.configuring, ?_⟩
    rw [transition_waking hp h.latched, wakingPhase, if_pos hwake, if_pos h.waits]
  · refine ⟨.reading, ?_⟩
    rw [transition_converting hp h.latched, convertingPhase, h.waits]
    rfl

/-- Settles O34: the step is one turn of the wait, and its answer ends the step. -/
theorem convertingAnswerCountsAndWaits : Obligations.ConvertingAnswerCountsAndWaits := by
  unfold Obligations.ConvertingAnswerCountsAndWaits
  intro s op bytes polls later hinv henv hlimit
  obtain ⟨after, hturn⟩ := transition_of_sequenceInv hinv
  have hpoll := Bus.poll_script s.bus true bytes polls later henv
  rw [waitReady_converting false after hinv.pollBound (by rw [hpoll]) hlimit, hpoll] at hturn
  rw [step_of_sequenceInv hinv, maxTransitions, runTransitions_waits hturn rfl]
  simp [hinv.waits]

/-! ## The host wrapper on a handle that is not initialised (41_transport.md R131) -/

/-- In an idle block an error changes `ERR` only (60_exceptions.md R217). -/
theorem State.raise_of_idle {s : State} (h : BlockIdle s) (e : Error) :
    s.raise e = { s with err := e.code } := by
  obtain ⟨hphase, hk, hlatch, hwaiting⟩ := h
  simp [State.raise, State.park, hphase, hk, hlatch, hwaiting]

/-- A host operation fails fast: only `ERR` changes, to 1. -/
theorem exec_uninitialised {i : Instr} {proc : State → State} {s : State} (hs : s.inited = false)
    (hidle : BlockIdle s) (hi : ∀ s, exec i s = hostOp s proc) :
    exec i s = .next { s with err := 1 } := by
  rw [hi, hostOp, if_neg (by simp [hs]), State.raise_of_idle hidle]
  rfl

/-! ## The data read (41_transport.md R128) -/

/-- The decoder's word is the sample of the bytes received (42_sample_decoder.md R151). -/
theorem DataBytes.sample_eq_sdec (d : DataBytes) : d.sample = sdec d.b0 d.b1 d.b2 := by
  rw [sdec_eq_signExtend, rawSample_eq_append]
  rfl

/-- The frame of a data read tells which bytes were received. -/
theorem dataBytes_eq_of_rdata_events {p : Params} {tr : List Event} {d e : DataBytes}
    (h : tr ++ (FrameShape.rdata d.b0 d.b1 d.b2).events p =
      tr ++ (FrameShape.rdata e.b0 e.b1 e.b2).events p) : d = e := by
  have hreads := congrArg dataReads h
  rw [dataReads_frame, dataReads_frame] at hreads
  exact List.head_eq_of_cons_eq (List.append_cancel_left hreads)

/-- A data read answers the sample of three received bytes, which the trace shows and which are the
next ones of a scripted environment. -/
theorem Bus.rdata_sample (b : Bus) (p : Params) : ∃ d : DataBytes,
    (b.rdata p).1 = d.sample ∧
      (b.rdata p).2.trace = b.trace ++ (FrameShape.rdata d.b0 d.b1 d.b2).events p ∧
      ∀ (e : DataBytes) (bytes : List Byte) (polls : List Bool) (later : Option Bool),
        b.env = .script (e.bytes ++ bytes) polls later →
        d = e ∧ (b.rdata p).2.env = .script bytes polls later ∧ (b.rdata p).2.draws = b.draws := by
  obtain ⟨b0, b1, b2, hsample, htrace⟩ := b.rdata_spec p
  refine ⟨⟨b0, b1, b2⟩, by rw [hsample, DataBytes.sample_eq_sdec], htrace, ?_⟩
  intro e bytes polls later henv
  have hscript := Bus.rdata_script b p e.b0 e.b1 e.b2 bytes polls later henv
  rw [hscript] at htrace ⊢
  exact ⟨(dataBytes_eq_of_rdata_events htrace).symm, rfl, rfl⟩

/-! ## The host operations that are one procedure -/

/-- A procedure that only sends, under the host wrapper: initialised, its events are appended and `ERR`
is 0; not initialised, only `ERR` changes, to 1 (41_transport.md R131). -/
theorem exec_sending_procedure {i : Instr} (proc : Bus → Params → Bus)
    (hi : ∀ s, exec i s = hostOp s fun s => { s with bus := proc s.bus s.params }) (s : State)
    {events : List Event} (htrace : (proc s.bus s.params).trace = s.bus.trace ++ events)
    (hdraws : (proc s.bus s.params).draws = s.bus.draws) :
    (s.inited = true → ∃ b : Bus, exec i s = .next { s with bus := b, err := 0 } ∧
      b.trace = s.bus.trace ++ events ∧ b.draws = s.bus.draws) ∧
    (s.inited = false → BlockIdle s → exec i s = .next { s with err := 1 }) :=
  ⟨fun hs => ⟨_, exec_initialised hs hi, htrace, hdraws⟩,
    fun hs hidle => exec_uninitialised hs hidle hi⟩

/-- Settles O13: `RESET` is `Reset()` under the host wrapper. -/
theorem resetSendsTheHeldResetFrame : Obligations.ResetSendsTheHeldResetFrame := by
  unfold Obligations.ResetSendsTheHeldResetFrame
  exact ⟨rfl, fun s => exec_sending_procedure Bus.resetDevice (fun _ => rfl) s
    (Bus.resetDevice_trace _ _) (Bus.resetDevice_draws _ _)⟩

/-- Settles O14: `START` is `StartSync()` under the host wrapper. -/
theorem startSendsTheStartFrame : Obligations.StartSendsTheStartFrame := by
  unfold Obligations.StartSendsTheStartFrame
  exact ⟨rfl, fun s => exec_sending_procedure Bus.startSync (fun _ => rfl) s
    (Bus.startSync_trace _ _) (Bus.startSync_draws _ _)⟩

/-- Settles O15: `PWRDN` is `PowerDown()` under the host wrapper. -/
theorem powerDownSendsTheSleepFrame : Obligations.PowerDownSendsTheSleepFrame := by
  unfold Obligations.PowerDownSendsTheSleepFrame
  exact ⟨rfl, fun s => exec_sending_procedure Bus.powerDown (fun _ => rfl) s
    (Bus.powerDown_trace _ _) (Bus.powerDown_draws _ _)⟩

/-- Settles O17: `WREG4` is `WReg4(v)` under the host wrapper. -/
theorem bulkWriteSendsItsFourBytes : Obligations.BulkWriteSendsItsFourBytes := by
  unfold Obligations.BulkWriteSendsItsFourBytes
  exact ⟨fun _ _ _ _ => rfl, fun v0 v1 v2 v3 s =>
    exec_sending_procedure (fun b p => b.wreg4 p ⟨v0, v1, v2, v3⟩) (fun _ => rfl) s
      (Bus.wreg4_trace _ _ _) (Bus.wreg4_draws _ _ _)⟩

/-- Settles O18: `WREG1` is `WReg1(a, v)` under the host wrapper. -/
theorem singleWriteSendsAddressAndByte : Obligations.SingleWriteSendsAddressAndByte := by
  unfold Obligations.SingleWriteSendsAddressAndByte
  exact ⟨fun _ _ => rfl, fun a v s =>
    exec_sending_procedure (fun b p => b.wreg1 p a v) (fun _ => rfl) s
      (Bus.wreg1_trace _ _ _ _) (Bus.wreg1_draws _ _ _ _)⟩

/-- `RREG` stores the byte that `RReg(a)` answers. -/
theorem exec_rreg_initialised {s : State} (a : RegAddr) (hs : s.inited = true) :
    exec (.rreg a) s =
      .next { s with rb := (s.bus.rreg s.params a).1, bus := (s.bus.rreg s.params a).2, err := 0 } :=
  exec_initialised (proc := fun s => { s with
    rb := (s.bus.rreg s.params a).1, bus := (s.bus.rreg s.params a).2 }) hs fun _ => rfl

/-- `RDATA` stores the sample that `SDEC(RData())` answers. -/
theorem exec_rdata_initialised {s : State} (hs : s.inited = true) :
    exec .rdata s =
      .next { s with sr := (s.bus.rdata s.params).1, bus := (s.bus.rdata s.params).2, err := 0 } :=
  exec_initialised (proc := fun s => { s with
    sr := (s.bus.rdata s.params).1, bus := (s.bus.rdata s.params).2 }) hs fun _ => rfl

/-- Settles O16: `RREG` is `RReg(a)` under the host wrapper, which stores the byte its frame shows; a
sequence runs transitions, none of which writes `RB`. -/
theorem registerReadStoresTheReturnedByte : Obligations.RegisterReadStoresTheReturnedByte := by
  unfold Obligations.RegisterReadStoresTheReturnedByte
  refine ⟨fun _ => rfl, fun a s => ⟨fun hs => ⟨_, _, exec_rreg_initialised a hs,
      s.bus.rreg_trace s.params a, fun w bytes polls later henv => ?_⟩,
    fun hs hidle => exec_uninitialised hs hidle fun _ => rfl⟩, fun i op s t hq h => ?_⟩
  · rw [Bus.rreg_script _ _ _ _ _ _ _ henv]
    exact ⟨rfl, rfl, rfl⟩
  · rw [exec_of_sequence hq] at h
    obtain ⟨hrb, _⟩ := readAll_frame h
    exact hrb

/-- Settles O19: `RDATA` is `RData()` under the host wrapper, which stores the decoded word of the
bytes its frame shows. -/
theorem dataReadDecodesThreeBytes : Obligations.DataReadDecodesThreeBytes := by
  unfold Obligations.DataReadDecodesThreeBytes
  refine ⟨rfl, fun s => ⟨fun hs => ?_, fun hs hidle => exec_uninitialised hs hidle fun _ => rfl⟩⟩
  obtain ⟨d, hsample, htrace, hscript⟩ := s.bus.rdata_sample s.params
  refine ⟨d, _, ?_, htrace, hscript⟩
  rw [← hsample]
  exact exec_rdata_initialised hs

end Sys2Proof.Machine

namespace Sys2Proof.Machine

/-! ## The sample decoder on integers (42_sample_decoder.md R150, R152)

Two readings of the raw sample settle the family: its value is its two's complement value, and as a
natural number it has its three bytes as digits in base 256. -/

/-- Sign extension keeps the value of the raw sample. -/
theorem sdec_toInt (b0 b1 b2 : Byte) : (sdec b0 b1 b2).toInt = (rawSample b0 b1 b2).toInt := by
  rw [sdec_eq_signExtend, BitVec.toInt_signExtend_of_le (by decide)]

/-- The bytes of the raw sample are its digits in base 256. -/
theorem rawSample_toNat (b0 b1 b2 : Byte) :
    (rawSample b0 b1 b2).toNat = b0.toNat * 65536 + b1.toNat * 256 + b2.toNat := by
  rw [rawSample_eq_append, BitVec.toNat_append, BitVec.toNat_append,
    ← Nat.shiftLeft_add_eq_or_of_lt b1.isLt, ← Nat.shiftLeft_add_eq_or_of_lt b2.isLt,
    Nat.shiftLeft_eq, Nat.shiftLeft_eq]
  omega

/-- No two triples of bytes make up the same raw sample. -/
theorem rawSample_inj {b0 b1 b2 c0 c1 c2 : Byte} (h : rawSample c0 c1 c2 = rawSample b0 b1 b2) :
    c0 = b0 ∧ c1 = b1 ∧ c2 = b2 := by
  have hdigits := congrArg BitVec.toNat h
  rw [rawSample_toNat, rawSample_toNat] at hdigits
  refine ⟨?_, ?_, ?_⟩ <;> apply BitVec.eq_of_toNat_eq <;> omega

/-- No two triples of bytes are decoded to the same sample. -/
theorem sdec_toInt_inj {b0 b1 b2 c0 c1 c2 : Byte}
    (h : (sdec c0 c1 c2).toInt = (sdec b0 b1 b2).toInt) : c0 = b0 ∧ c1 = b1 ∧ c2 = b2 := by
  rw [sdec_toInt, sdec_toInt] at h
  exact rawSample_inj (BitVec.eq_of_toInt_eq h)

/-- Every value of 24 bits is a decoded sample: of the bytes of its two's complement word. -/
theorem exists_sdec_toInt_eq {v : Int} (hlo : -8388608 ≤ v) (hhi : v ≤ 8388607) :
    ∃ b0 b1 b2 : Byte, (sdec b0 b1 b2).toInt = v := by
  refine ⟨(BitVec.ofInt 24 v).extractLsb' 16 8, (BitVec.ofInt 24 v).extractLsb' 8 8,
    (BitVec.ofInt 24 v).extractLsb' 0 8, ?_⟩
  rw [sdec_toInt, rawSample_extract]
  exact BitVec.toInt_ofInt_eq_self (by decide) hlo (by omega)

/-- Settles O4: the raw sample is its bytes side by side, and its sign bit is the first byte's, so the
integer reading is two's complement on its digits. -/
theorem sampleDecoderSignExtends : Obligations.SampleDecoderSignExtends := by
  unfold Obligations.SampleDecoderSignExtends
  refine fun b0 b1 b2 => ⟨by rw [sdec_eq_signExtend, rawSample_eq_append], ?_⟩
  rw [sdec_toInt, BitVec.toInt_eq_toNat_cond, rawSample_toNat]
  by_cases hneg : 128 ≤ b0.toNat
  · rw [if_neg (by omega), if_pos hneg]
    omega
  · rw [if_pos (by omega), if_neg hneg]
    omega

/-- Settles O5: the decoder is two's complement on the raw sample, which has one value for each word
of 24 bits, and one word for each triple of bytes. -/
theorem sampleDecoderIsOneToOneOnItsRange : Obligations.SampleDecoderIsOneToOneOnItsRange := by
  unfold Obligations.SampleDecoderIsOneToOneOnItsRange
  refine ⟨fun b0 b1 b2 => ?_, fun v hlo hhi => ?_⟩
  · rw [sdec_toInt]
    exact ⟨BitVec.le_toInt _, Int.le_of_lt_add_one BitVec.toInt_lt⟩
  · obtain ⟨b0, b1, b2, rfl⟩ := exists_sdec_toInt_eq hlo hhi
    exact ⟨b0, b1, b2, rfl, fun _ _ _ h => sdec_toInt_inj h⟩

end Sys2Proof.Machine

namespace Sys2Proof.Machine

open Sys2Proof.Safety
open Host (Outcome)

/-! ## The phases, one equation per case (43_sequencer.md R166, R168, R170 to R172) -/

/-- Without `P.WAKE` the Waking step does nothing (43_sequencer.md R166). -/
theorem wakingPhase_without_wake {s : State} (hw : s.params.wake = false) :
    wakingPhase s = .next { s with phase := .configuring } := by
  simp [wakingPhase, hw]

/-- A Waking step that waits polls again. -/
theorem wakingPhase_waits {s : State} (hw : s.params.wake = true) (hwt : s.waiting = true) :
    wakingPhase s = waitReady false .configuring s := by
  simp [wakingPhase, hw, hwt]

/-- Otherwise it sends a start/sync and takes the first turn of its wait. -/
theorem wakingPhase_starts {s : State} (hw : s.params.wake = true) (hwt : s.waiting = false) :
    wakingPhase s = waitReady true .configuring { s with bus := s.bus.startSync s.params } := by
  simp [wakingPhase, hw, hwt]

/-- The Configuring step of a single-shot sequence, or of the first channel, issues something. -/
theorem configure_issuing {op : Latch} {s : State} (h : op.mode = .ss ∨ s.k.val = 0) :
    (op.mode == .cc && decide (1 ≤ s.k.val)) = false := by
  rcases h with h | h <;> simp [h]

/-- Such a Configuring step writes a value that is not resident, and any value where no skip is allowed
(43_sequencer.md R168). -/
theorem configure_writes {op : Latch} {s : State} (h : op.mode = .ss ∨ s.k.val = 0)
    (hv : s.channelValue op s.k ≠ s.r0s ∨ s.params.skipUnchanged = false) :
    configure op s = { s with
      bus := s.bus.wreg1 s.params 0 (s.channelValue op s.k), r0s := s.channelValue op s.k } := by
  rcases hv with hv | hv <;> simp [configure, configure_issuing h, hv]

/-- A resident value is skipped where that is allowed: a start/sync is sent instead. -/
theorem configure_restarts {op : Latch} {s : State} (h : op.mode = .ss ∨ s.k.val = 0)
    (hv : s.channelValue op s.k = s.r0s) (hs : s.params.skipUnchanged = true) :
    configure op s = { s with bus := s.bus.startSync s.params } := by
  simp [configure, configure_issuing h, hv, hs]

/-- Which of the three a Configuring step does: nothing after a burst, a write, a start/sync. -/
theorem configure_conditions (op : Latch) (s : State) :
    (op.mode = .cc ∧ 1 ≤ s.k.val) ∨ (op.mode = .ss ∨ s.k.val = 0) ∧
      ((s.channelValue op s.k ≠ s.r0s ∨ s.params.skipUnchanged = false) ∨
        (s.channelValue op s.k = s.r0s ∧ s.params.skipUnchanged = true)) := by
  by_cases h : op.mode = .ss ∨ s.k.val = 0
  · refine .inr ⟨h, ?_⟩
    by_cases hv : s.channelValue op s.k = s.r0s
    · cases hskip : s.params.skipUnchanged with
      | false => exact .inl (.inr rfl)
      | true => exact .inr ⟨hv, rfl⟩
    · exact .inl (.inl hv)
  · cases hm : op.mode with
    | ss => exact absurd (.inl hm) h
    | cc => exact .inl ⟨rfl, Nat.one_le_iff_ne_zero.mpr fun hk => h (.inr hk)⟩

/-- The single-shot read (43_sequencer.md R170). -/
theorem readingPhase_plain {op : Latch} {s : State} (hm : op.mode = .ss) : readingPhase op s =
    .next ((({ s with bus := (s.bus.rdata s.params).2 } : State).store
      (s.bus.rdata s.params).1).advance op) := by
  simp only [readingPhase, hm, readPlain]

/-- The pipelined read (43_sequencer.md R171). -/
theorem readingPhase_pipelined {op : Latch} {s : State} (hm : op.mode = .cc)
    (hx : s.params.capXfer = true) : readingPhase op s =
    .next ((({ s with bus := (s.bus.xrdwr s.params (nextValue op s)).2, r0s := nextValue op s } :
      State).store (s.bus.xrdwr s.params (nextValue op s)).1).advance op) := by
  simp only [readingPhase, hm, readPipelined, hx, if_true]

/-- The single-shot restore (43_sequencer.md R172). -/
theorem restoringPhase_plain {op : Latch} {s : State} (hm : op.mode = .ss) : restoringPhase op s =
    .next ({ s with bus := s.bus.wreg1 s.params 0 s.orig, r0s := s.orig } : State).complete := by
  simp only [restoringPhase, hm]

/-- A continuous sequence has restored with its last burst. -/
theorem restoringPhase_pipelined {op : Latch} {s : State} (hm : op.mode = .cc) :
    restoringPhase op s = .next s.complete := by
  simp only [restoringPhase, hm]

/-! ## A scripted bus when bytes are received (20_memory.md R47) -/

/-- What a scripted bus becomes when a byte is received: one byte fewer, and a free value drawn where
none is left. -/
theorem Bus.rx_of_script {b : Bus} {bytes : List Byte} {polls : List Bool} {later : Option Bool}
    (h : b.env = .script bytes polls later) : b.rx.2.env = .script bytes.tail polls later ∧
      b.rx.2.draws = b.draws + if bytes.length = 0 then 1 else 0 := by
  cases bytes <;> simp [Bus.rx, h, Environment.receive]

/-- The same of a combined transfer. -/
theorem Bus.xfer_of_script {b : Bus} {bytes : List Byte} {polls : List Bool} {later : Option Bool}
    (u : Byte) (h : b.env = .script bytes polls later) :
    (b.xfer u).2.env = .script bytes.tail polls later ∧
      (b.xfer u).2.draws = b.draws + if bytes.length = 0 then 1 else 0 := by
  cases bytes <;> simp [Bus.xfer, h, Environment.exchange]

end Sys2Proof.Machine

namespace Sys2Proof.Machine

open Sys2Proof.Safety
open Host (Outcome)

/-! ## Received bytes do not steer a running sequence (43_sequencer.md R185 (a)) -/

/-- Two buses that differ at most in the bytes received and still to come: what `SameButData` says of
the buses of two states. -/
def Bus.SameButData (b b' : Bus) : Prop :=
  (∃ bytes bytes' polls later, b.env = .script bytes polls later ∧
    b'.env = .script bytes' polls later ∧ bytes.length = bytes'.length) ∧
  b.trace.map Event.blot = b'.trace.map Event.blot ∧ b.draws = b'.draws

/-- `s` with other data: another sample in `SR`, other channels, another bus. -/
def State.withData (s : State) (v : Sample) (c : Channels) (b : Bus) : State :=
  { s with sr := v, ch := c, bus := b }

theorem sameButData_iff {s s' : State} :
    SameButData s s' ↔ ∃ v c b, s.bus.SameButData b ∧ s' = s.withData v c b := by
  constructor
  · rintro ⟨henv, htrace, hdraws, heq⟩
    exact ⟨_, _, _, ⟨henv, htrace, hdraws⟩, heq⟩
  · rintro ⟨v, c, b, ⟨henv, htrace, hdraws⟩, rfl⟩
    exact ⟨henv, htrace, hdraws, rfl⟩

theorem State.withData_sameButData {s : State} {v : Sample} {c : Channels} {b : Bus}
    (h : s.bus.SameButData b) : SameButData s (s.withData v c b) :=
  sameButData_iff.mpr ⟨v, c, b, h, rfl⟩

/-! ### The bus -/

section
variable {b b' : Bus} (h : b.SameButData b')
include h

theorem Bus.SameButData.sel (active : Bool) : (b.sel active).SameButData (b'.sel active) := by
  obtain ⟨⟨bytes, bytes', polls, later, he, he', hlen⟩, htrace, hdraws⟩ := h
  exact ⟨⟨bytes, bytes', polls, later, by simp [he], by simp [he'], hlen⟩, by simp [htrace], hdraws⟩

theorem Bus.SameButData.dly (n : Nat) : (b.dly n).SameButData (b'.dly n) := by
  obtain ⟨henv, htrace, hdraws⟩ := h
  exact ⟨henv, by simp [htrace], hdraws⟩

theorem Bus.SameButData.tx (v : Byte) : (b.tx v).SameButData (b'.tx v) := by
  obtain ⟨⟨bytes, bytes', polls, later, he, he', hlen⟩, htrace, hdraws⟩ := h
  exact ⟨⟨bytes, bytes', polls, later, by simp [he], by simp [he'], hlen⟩, by simp [htrace], hdraws⟩

/-- The byte received may differ; it is blotted out of the trace. -/
theorem Bus.SameButData.rx : b.rx.2.SameButData b'.rx.2 := by
  obtain ⟨⟨bytes, bytes', polls, later, he, he', hlen⟩, htrace, hdraws⟩ := h
  obtain ⟨henv, hdraw⟩ := Bus.rx_of_script he
  obtain ⟨henv', hdraw'⟩ := Bus.rx_of_script he'
  exact ⟨⟨_, _, polls, later, henv, henv', by simp [hlen]⟩, by simp [htrace, Event.blot],
    by rw [hdraw, hdraw', hdraws, hlen]⟩

/-- The byte sent is kept, the one received is blotted out. -/
theorem Bus.SameButData.xfer (u : Byte) : (b.xfer u).2.SameButData (b'.xfer u).2 := by
  obtain ⟨⟨bytes, bytes', polls, later, he, he', hlen⟩, htrace, hdraws⟩ := h
  obtain ⟨henv, hdraw⟩ := Bus.xfer_of_script u he
  obtain ⟨henv', hdraw'⟩ := Bus.xfer_of_script u he'
  exact ⟨⟨_, _, polls, later, henv, henv', by simp [hlen]⟩, by simp [htrace, Event.blot],
    by rw [hdraw, hdraw', hdraws, hlen]⟩

/-- A poll is answered alike: by the script, or by the free value of the same number. -/
theorem Bus.SameButData.poll : b.poll.1 = b'.poll.1 ∧ b.poll.2.SameButData b'.poll.2 := by
  obtain ⟨⟨bytes, bytes', polls, later, he, he', hlen⟩, htrace, hdraws⟩ := h
  cases polls with
  | cons c polls =>
    rw [Bus.poll_script b c _ _ _ he, Bus.poll_script b' c _ _ _ he']
    exact ⟨rfl, ⟨_, _, _, _, rfl, rfl, hlen⟩, by simp [htrace], hdraws⟩
  | nil =>
    cases later with
    | some c =>
      rw [Bus.poll_later b c _ he, Bus.poll_later b' c _ he']
      exact ⟨rfl, ⟨_, _, _, _, rfl, rfl, hlen⟩, by simp [htrace], hdraws⟩
    | none =>
      have hfree : b.poll.1 = b'.poll.1 := by simp [Bus.poll, he, he', Environment.poll, hdraws]
      exact ⟨hfree, ⟨bytes, bytes', [], none, by simp [Bus.poll, he, Environment.poll],
        by simp [Bus.poll, he', Environment.poll], hlen⟩, by simp [htrace, hfree],
        by simp [Bus.poll, he, he', Environment.poll, hdraws]⟩

/-- A frame whose body keeps the two buses alike does so too. -/
theorem Bus.SameButData.frame {α : Type} (tCs : Nat) {body : Bus → α × Bus}
    (hbody : ∀ {b b' : Bus}, b.SameButData b' → (body b).2.SameButData (body b').2) :
    (b.frame tCs body).2.SameButData (b'.frame tCs body).2 :=
  ((hbody ((h.sel true).dly tCs)).dly tCs).sel false

theorem Bus.SameButData.send (bytes : List Byte) : (b.send bytes).SameButData (b'.send bytes) := by
  induction bytes generalizing b b' with
  | nil => exact h
  | cons v vs ih => exact ih (h.tx v)

theorem Bus.SameButData.sendFrame (tCs : Nat) (bytes : List Byte) :
    (b.sendFrame tCs bytes).SameButData (b'.sendFrame tCs bytes) :=
  h.frame tCs fun h => h.send bytes

theorem Bus.SameButData.startSync (p : Params) : (b.startSync p).SameButData (b'.startSync p) :=
  h.sendFrame p.tCs [0x08]

theorem Bus.SameButData.wreg1 (p : Params) (a : RegAddr) (v : Byte) :
    (b.wreg1 p a v).SameButData (b'.wreg1 p a v) :=
  h.sendFrame p.tCs [writeCommand a, v]

theorem Bus.SameButData.rdata (p : Params) : (b.rdata p).2.SameButData (b'.rdata p).2 :=
  h.frame p.tCs fun h => h.rx.rx.rx

theorem Bus.SameButData.xrdwr (p : Params) (v : Byte) :
    (b.xrdwr p v).2.SameButData (b'.xrdwr p v).2 :=
  h.frame p.tCs fun h => ((h.xfer 0x40).xfer v).xfer p.xferFill

end

/-! ### The phases -/

theorem waitReady_with_data {first : Bool} {after : Phase} {s t : State} {b : Bus} (v : Sample)
    (c : Channels) (hb : s.bus.SameButData b) (h : waitReady first after s = .next t) :
    ∃ t', waitReady first after (s.withData v c b) = .next t' ∧ SameButData t t' := by
  obtain ⟨hanswer, hbus⟩ := hb.poll
  obtain ⟨hc, ⟨ha, rfl⟩ | ⟨ha, rfl, hl⟩ | ⟨ha, rfl, limit, hl, hr⟩⟩ := waitReady_cases h
  · exact ⟨_, waitReady_ready (s := s.withData v c b) first after hc (hanswer ▸ ha),
      State.withData_sameButData hbus⟩
  · exact ⟨_, waitReady_converting (s := s.withData v c b) first after hc (hanswer ▸ ha) hl,
      State.withData_sameButData hbus⟩
  · exact ⟨_, waitReady_timeout (s := s.withData v c b) first after limit hc (hanswer ▸ ha) hl hr,
      State.withData_sameButData hbus⟩

/-- The Configuring step compares the channel's value with `R0S`: neither is data received. -/
theorem configure_with_data (op : Latch) {s : State} {b : Bus} (v : Sample) (c : Channels)
    (hb : s.bus.SameButData b) : SameButData (configure op s) (configure op (s.withData v c b)) := by
  rcases configure_conditions op s with ⟨hm, hk⟩ | ⟨h, hv | ⟨hv, hskip⟩⟩
  · rw [configure_pipelined hm hk, configure_pipelined (s := s.withData v c b) hm hk]
    exact State.withData_sameButData hb
  · rw [configure_writes h hv, configure_writes (s := s.withData v c b) h hv]
    exact State.withData_sameButData (hb.wreg1 s.params 0 _)
  · rw [configure_restarts h hv hskip, configure_restarts (s := s.withData v c b) h hv hskip]
    exact State.withData_sameButData (hb.startSync s.params)

theorem sameButData_advance {s s' : State} (op : Latch) (h : SameButData s s') :
    SameButData (s.advance op) (s'.advance op) := by
  obtain ⟨v, c, b, hb, rfl⟩ := sameButData_iff.mp h
  by_cases hk : s.k.val + 1 < op.top.channels
  · rw [State.advance_of_more s op hk, State.advance_of_more (s.withData v c b) op hk]
    exact State.withData_sameButData hb
  · rw [State.advance_of_last s op hk, State.advance_of_last (s.withData v c b) op hk]
    exact State.withData_sameButData hb

/-- A read stores what it received and goes on to the same place. -/
theorem readingPhase_with_data {op : Latch} {s t : State} {b : Bus} (v : Sample) (c : Channels)
    (hb : s.bus.SameButData b) (h : readingPhase op s = .next t) :
    ∃ t', readingPhase op (s.withData v c b) = .next t' ∧ SameButData t t' := by
  obtain ⟨hm, rfl⟩ | ⟨hm, hx, rfl⟩ := readingPhase_cases h
  · exact ⟨_, readingPhase_plain hm,
      sameButData_advance op (State.withData_sameButData (hb.rdata s.params))⟩
  · exact ⟨_, readingPhase_pipelined (s := s.withData v c b) hm hx,
      sameButData_advance op (State.withData_sameButData (hb.xrdwr s.params (nextValue op s)))⟩

/-- A transition after the entry takes the same row of 43_sequencer.md R179 whatever the data. -/
theorem transition_with_data {s s' t : State} (hs : SameButData s s') (hp : s.phase ≠ .entry)
    (h : transition s = .next t) : ∃ t', transition s' = .next t' ∧ SameButData t t' := by
  obtain ⟨v, c, b, hb, rfl⟩ := sameButData_iff.mp hs
  rcases transition_latched h with h0 | ⟨op, hl⟩
  · rw [transition_idle h0] at h
    cases h
    exact ⟨_, transition_idle (s := s.withData v c b) h0, hs⟩
  rcases transition_cases hl h with ⟨h0, rfl⟩ | ⟨hph, _⟩ | ⟨hph, _⟩ | ⟨hph, hw, rfl⟩ |
    ⟨hph, hw, hwt, h⟩ | ⟨hph, hw, hwt, h⟩ | ⟨hph, rfl⟩ | ⟨hph, h⟩ | ⟨hph, h⟩ | ⟨hph, hm, rfl⟩ |
    ⟨hph, hm, rfl⟩
  · exact ⟨_, transition_idle (s := t.withData v c b) h0, hs⟩
  · exact absurd hph hp
  · exact absurd hph hp
  · rw [transition_waking (s := s.withData v c b) hph hl,
      wakingPhase_without_wake (s := s.withData v c b) hw]
    exact ⟨_, rfl, State.withData_sameButData hb⟩
  · rw [transition_waking (s := s.withData v c b) hph hl,
      wakingPhase_waits (s := s.withData v c b) hw hwt]
    exact waitReady_with_data v c hb h
  · rw [transition_waking (s := s.withData v c b) hph hl,
      wakingPhase_starts (s := s.withData v c b) hw hwt]
    exact waitReady_with_data (s := { s with bus := s.bus.startSync s.params }) v c
      (hb.startSync s.params) h
  · rw [transition_configuring (s := s.withData v c b) hph hl, configuringPhase]
    obtain ⟨v', c', b', hb', heq⟩ := sameButData_iff.mp (configure_with_data op v c hb)
    rw [heq]
    exact ⟨_, rfl, State.withData_sameButData hb'⟩
  · rw [transition_converting (s := s.withData v c b) hph hl]
    exact waitReady_with_data v c hb h
  · rw [transition_reading (s := s.withData v c b) hph hl]
    exact readingPhase_with_data v c hb h
  · rw [transition_restoring (s := s.withData v c b) hph hl, restoringPhase_plain hm]
    exact ⟨_, rfl, State.withData_sameButData (hb.wreg1 s.params 0 _)⟩
  · rw [transition_restoring (s := s.withData v c b) hph hl, restoringPhase_pipelined hm]
    exact ⟨_, rfl, State.withData_sameButData hb⟩

/-- Runs of two states that differ in data only go in lockstep: they stop at the same transition. -/
theorem runTransitions_with_data {fuel : Nat} {s s' t : State} (hs : SameButData s s')
    (hp : s.phase ≠ .entry) (h : runTransitions fuel s = .next t) :
    ∃ t', runTransitions fuel s' = .next t' ∧ SameButData t t' := by
  induction fuel generalizing s s' with
  | zero =>
    obtain rfl : s = t := Outcome.next.inj h
    exact ⟨s', rfl, hs⟩
  | succ fuel ih =>
    cases hu : transition s with
    | fault f => simp [runTransitions, hu] at h
    | refused r => simp [runTransitions, hu] at h
    | next u =>
      obtain ⟨u', hu', hdata⟩ := transition_with_data hs hp hu
      have hstop : u'.phase = u.phase ∧ u'.waiting = u.waiting := by
        obtain ⟨_, _, _, _, rfl⟩ := sameButData_iff.mp hdata
        exact ⟨rfl, rfl⟩
      simp only [runTransitions, hu] at h
      simp only [runTransitions, hu', hstop]
      split at h
      next hends =>
        obtain rfl : u = t := Outcome.next.inj h
        rw [if_pos hends]
        exact ⟨u', rfl, hdata⟩
      next hgoes =>
        rw [if_neg hgoes]
        exact ih hdata (transition_phase_ne_entry hu) h

/-- Settles O54: a waiting sequence is past its entry, and no transition after the entry looks at a
byte received, so two runs that differ in data go in lockstep. -/
theorem dataBytesNeverSteerTheSequence : Obligations.DataBytesNeverSteerTheSequence := by
  unfold Obligations.DataBytesNeverSteerTheSequence
  intro s s' t op hinv hs h
  have hentry : s.phase ≠ .entry := by
    rcases sequenceInv_phase hinv with hp | hp <;> simp [hp]
  have hbusy' : s'.phase ≠ .idle := by
    obtain ⟨_, _, _, _, rfl⟩ := sameButData_iff.mp hs
    show s.phase ≠ .idle
    rcases sequenceInv_phase hinv with hp | hp <;> simp [hp]
  rw [step_of_sequenceInv hinv] at h
  rw [step_busy hbusy']
  exact runTransitions_with_data hs hentry h

end Sys2Proof.Machine

namespace Sys2Proof.Machine

open Sys2Proof.Safety
open Host (Outcome)

/-! ## The register-0 value of a channel (43_sequencer.md R165) -/

theorem chanVal_diff (p : Params) (k : Fin 4) (o : Option GainCode) (orig : Byte) :
    chanVal p .diff k o orig =
      enc0 (muxDiff k) (o.getD (orig.extractLsb' 1 3)) (orig.extractLsb' 0 1) := rfl

theorem chanVal_se (p : Params) (k : Fin 4) (o : Option GainCode) (orig : Byte) :
    chanVal p .se k o orig =
      enc0 (muxSe p k) (avssGainMap p (o.getD (orig.extractLsb' 1 3))) 1 := rfl

/-- The three fields of a register-0 value are where 10_state.md R22 puts them. -/
theorem enc0_fields (mux : MuxCode) (gain : GainCode) (byp : BitVec 1) :
    (enc0 mux gain byp).extractLsb' 4 4 = mux ∧ (enc0 mux gain byp).extractLsb' 1 3 = gain ∧
      (enc0 mux gain byp).extractLsb' 0 1 = byp := by
  simpa [dec0] using dec0_enc0 mux gain byp

theorem enc0_getLsbD_zero (mux : MuxCode) (gain : GainCode) (byp : BitVec 1) :
    (enc0 mux gain byp).getLsbD 0 = byp.getLsbD 0 := by
  obtain ⟨_, _, hbyp⟩ := enc0_fields mux gain byp
  simpa using congrArg (fun x => x.getLsbD 0) hbyp

/-- The multiplexer codes of the two differential channels (00_scope.md R5). -/
theorem muxDiff_eq {k : Fin 4} (hk : k.val < 2) : muxDiff k = if k = 0 then 0x0#4 else 0x5#4 := by
  match k, hk with
  | 0, _ | 1, _ => rfl

/-- `P.AVSS_GAIN_MAP` is the identity on codes 0, 1 and 2 (00_scope.md R5). -/
theorem avssGainMap_of_le_two (p : Params) {g : GainCode} (hg : g.toNat ≤ 2) :
    avssGainMap p g = g := by
  have hcode : g = 0 ∨ g = 1 ∨ g = 2 := by
    revert g
    decide
  rcases hcode with rfl | rfl | rfl <;> rfl

/-- Settles O10: the value packs the channel's code, the gain and the resident bypass bit, and each is
read back from its place. -/
theorem differentialChannelValueKeepsBypass : Obligations.DifferentialChannelValueKeepsBypass := by
  unfold Obligations.DifferentialChannelValueKeepsBypass
  intro p k o orig hk
  rw [chanVal_diff]
  obtain ⟨hmux, hgain, _⟩ := enc0_fields (muxDiff k) (o.getD (orig.extractLsb' 1 3)) (orig.extractLsb' 0 1)
  exact ⟨hmux.trans (muxDiff_eq hk), hgain, by rw [enc0_getLsbD_zero]; simp⟩

/-- Settles O11: the value packs the code of the parameter, the mapped gain and a set bypass bit, and each is
read back from its place. -/
theorem singleEndedChannelValueForcesBypass : Obligations.SingleEndedChannelValueForcesBypass := by
  unfold Obligations.SingleEndedChannelValueForcesBypass
  refine ⟨fun p k o orig => ?_, fun p => ⟨rfl, rfl, rfl, rfl⟩, fun p g => avssGainMap_of_le_two p,
    fun p => ⟨rfl, rfl, rfl, rfl, rfl⟩⟩
  rw [chanVal_se]
  obtain ⟨hmux, hgain, _⟩ := enc0_fields (muxSe p k) (avssGainMap p (o.getD (orig.extractLsb' 1 3))) 1
  exact ⟨hmux, hgain, by rw [enc0_getLsbD_zero]; rfl⟩

/-! ## Acceptance: the entry checks (43_sequencer.md R161 to R163) -/

/-- The first check that fails raises its error. -/
theorem readAll_raises {op : Latch} {s : State} {e : Error} (he : entryError s op = some e) :
    readAll op s = .next ((s.accept op).raise e) := by
  have he' : entryError (s.accept op) op = some e := he
  have hentry : transition (s.accept op) = .next ((s.accept op).raise e) := by
    rw [transition_entry (op := op) rfl rfl, entryPhase, he']
  rw [readAll, resume, maxTransitions, runTransitions_idle hentry rfl]

/-- A sequence an idle block refuses changes `ERR` only. -/
theorem readAll_refused {op : Latch} {s : State} {e : Error} (hidle : BlockIdle s)
    (he : entryError s op = some e) : readAll op s = .next { s with err := e.code } := by
  rw [readAll_raises he, ← State.raise_of_idle hidle]
  rfl

theorem entryError_missingCapability {s : State} {op : Latch} (hi : s.inited = true)
    (hc : capabilityMissing s.params op.mode = true) :
    entryError s op = some .missingCapability := by
  simp [entryError, hi, hc]

/-- With the capabilities bound the gain check decides (43_sequencer.md R163). -/
theorem entryError_of_bound {s : State} {op : Latch} (hi : s.inited = true)
    (hc : capabilityMissing s.params op.mode = false) :
    entryError s op = if gainInvalid s.params op then some .invalidGainForTopology else none := by
  simp [entryError, hi, hc]

theorem gainTooHigh_iff (o : Option GainCode) :
    gainTooHigh o = true ↔ ∃ g, o = some g ∧ g.toNat > 2 := by
  simp [gainTooHigh, Option.any_eq_true]

theorem Latch.exists_ovr {P : Option GainCode → Prop} (op : Latch) :
    (∃ k, P (op.ovr k)) ↔ P op.ovr0 ∨ P op.ovr1 ∨ P op.ovr2 ∨ P op.ovr3 := by
  simp [Fin.exists_fin_succ, Latch.ovr]

/-- The gain check refuses exactly a requested code above 2 of a single-ended sequence. -/
theorem gainInvalid_iff (p : Params) (op : Latch) : gainInvalid p op = true ↔
    p.checkGain = true ∧ op.top = .se ∧ ∃ k g, op.ovr k = some g ∧ g.toNat > 2 := by
  simp only [← gainTooHigh_iff, op.exists_ovr (P := fun o => gainTooHigh o = true)]
  simp [gainInvalid, and_assoc, or_assoc]

/-- Settles O31: the checks come before every event, and the second one fails. -/
theorem missingCapabilityRefusesTheSequence : Obligations.MissingCapabilityRefusesTheSequence := by
  unfold Obligations.MissingCapabilityRefusesTheSequence
  intro i op s hq hidle hi hmissing
  have hc : capabilityMissing s.params op.mode = true := by
    rcases hmissing with h | ⟨hm, h⟩
    · simp [capabilityMissing, h]
    · simp [capabilityMissing, hm, h]
  rw [exec_of_sequence hq, readAll_refused hidle (entryError_missingCapability hi hc)]
  rfl

/-! ## From the entry on -/

/-- The state a sequence enters when its checks pass: `ORIG` and `R0S` are read back, no channel is read
yet (43_sequencer.md R161, R164). -/
def State.entered (s : State) (op : Latch) : State :=
  { s with
    latch := some op, phase := .waking, k := 0, waiting := false, nvalid := 0
    orig := (s.bus.rreg s.params 0).1, r0s := (s.bus.rreg s.params 0).1
    bus := (s.bus.rreg s.params 0).2 }

/-- `t` is the state after some transitions from `s`, over step boundaries too. -/
abbrev Reaches : State → State → Prop :=
  Relation.ReflTransGen fun s t => transition s = .next t

theorem reaches_of_runTransitions {fuel : Nat} {s t : State}
    (h : runTransitions fuel s = .next t) : Reaches s t :=
  runTransitions_rel (R := Reaches) (fun _ => .refl) (fun _ _ _ => .trans)
    (fun _ _ h => .single (r := fun s t => transition s = .next t) h) fuel s t h

/-- A sequence whose checks pass goes on from the entry. -/
theorem readAll_reaches {op : Latch} {s t : State} (he : entryError s op = none)
    (h : readAll op s = .next t) : Reaches (s.entered op) t := by
  have hentry : transition (s.accept op) = .next (s.entered op) := by
    have he' : entryError (s.accept op) op = none := he
    rw [transition_entry (op := op) rfl rfl, entryPhase, he']
    rfl
  rw [readAll, resume, maxTransitions, runTransitions_more hentry (by simp [State.entered]) rfl] at h
  exact reaches_of_runTransitions h

/-- With no request pending a step makes transitions only. -/
theorem reaches_of_step {s t : State} (hq : s.pending = []) (h : step s = .next t) :
    Reaches s t := by
  rcases step_cases h with ⟨_, _, rfl⟩ | ⟨_, _, _, _, hq', _⟩ | ⟨_, _, _, _, hq', _⟩ | ⟨_, hrun⟩
  · exact .refl
  · simp [hq] at hq'
  · simp [hq] at hq'
  · exact reaches_of_runTransitions hrun

/-- What every transition keeps holds of every state reached. -/
theorem Reaches.keeps {P : State → Prop} (one : ∀ s t, P s → transition s = .next t → P t)
    {s t : State} (h : Reaches s t) (hs : P s) : P t := by
  induction h with
  | refl => exact hs
  | tail _ htu ih => exact one _ _ ih htu

theorem Reaches.pending {s t : State} (h : Reaches s t) : t.pending = s.pending := by
  refine h.keeps (P := fun t => t.pending = s.pending) (fun t u ht htu => ?_) rfl
  obtain ⟨_, _, _, _, hpending, _⟩ := transition_frame htu
  exact hpending.trans ht

theorem reaches_of_runSteps {n : Nat} {s t : State} (hq : s.pending = [])
    (h : runSteps n s = .next t) : Reaches s t := by
  induction n generalizing s with
  | zero =>
    obtain rfl : s = t := Outcome.next.inj h
    exact .refl
  | succ n ih =>
    cases hs : step s with
    | next u =>
      simp only [runSteps, hs] at h
      have hsu := reaches_of_step hq hs
      exact hsu.trans (ih (hsu.pending.trans hq) h)
    | fault f => simp [runSteps, hs] at h
    | refused r => simp [runSteps, hs] at h

/-- The idle block makes no transition. -/
theorem Reaches.eq_of_idle {s t : State} (h : Reaches s t) (hp : s.phase = .idle) : t = s := by
  induction h with
  | refl => rfl
  | tail _ htu ih =>
    subst ih
    rw [transition_idle hp] at htu
    exact (Outcome.next.inj htu).symm

/-- A turn of a wait keeps `ERR`, or raises `ConversionTimeout`. -/
theorem waitReady_err {first : Bool} {after : Phase} {s t : State}
    (h : waitReady first after s = .next t) : t.err = s.err ∨ t.err = 3 := by
  obtain ⟨_, ⟨_, rfl⟩ | ⟨_, rfl, _⟩ | ⟨_, rfl, _⟩⟩ := waitReady_cases h
  · exact .inl rfl
  · exact .inl rfl
  · exact .inr rfl

/-- After the entry `ERR` is kept until the sequence completes or times out. -/
theorem transition_err {s t : State} (hp : s.phase ≠ .entry) (h : transition s = .next t) :
    t.err = s.err ∨ t.err = 0 ∨ t.err = 3 := by
  rcases transition_latched h with h0 | ⟨op, hl⟩
  · rw [transition_idle h0] at h
    cases h
    exact .inl rfl
  rcases transition_cases hl h with ⟨_, rfl⟩ | ⟨hph, _⟩ | ⟨hph, _⟩ | ⟨_, _, rfl⟩ |
    ⟨_, _, _, h⟩ | ⟨_, _, _, h⟩ | ⟨_, rfl⟩ | ⟨_, h⟩ | ⟨_, h⟩ | ⟨_, _, rfl⟩ | ⟨_, _, rfl⟩
  · exact .inl rfl
  · exact absurd hph hp
  · exact absurd hph hp
  · exact .inl rfl
  · exact (waitReady_err h).imp_right .inr
  · exact (waitReady_err h).imp_right .inr
  · simp
  · exact (waitReady_err h).imp_right .inr
  · obtain ⟨_, rfl⟩ | ⟨_, _, rfl⟩ := readingPhase_cases h <;> simp
  · exact .inr (.inl rfl)
  · exact .inr (.inl rfl)

/-- After the entry nothing raises `InvalidGainForTopology`. -/
theorem Reaches.err_ne_four {s t : State} (h : Reaches s t) (hp : s.phase ≠ .entry)
    (he : s.err ≠ 4) : t.err ≠ 4 := by
  refine (h.keeps (P := fun s => s.phase ≠ .entry ∧ s.err ≠ 4) ?_ ⟨hp, he⟩).2
  rintro s t ⟨hp, he⟩ h
  refine ⟨transition_phase_ne_entry h, ?_⟩
  rcases transition_err hp h with h | h | h
  · rwa [h]
  · simp [h]
  · simp [h]

/-- Settles O32: with the capabilities bound the gain check is the last one; a sequence that passes it
only times out or completes. -/
theorem invalidGainRefusesTheSequence : Obligations.InvalidGainRefusesTheSequence := by
  unfold Obligations.InvalidGainRefusesTheSequence
  intro i op s hq hidle hi hpoll hxfer
  have hchecks := entryError_of_bound (op := op) hi (capabilityMissing_eq_false.mpr ⟨hpoll, hxfer⟩)
  rw [exec_of_sequence hq]
  refine ⟨fun hasked => ?_, fun hasked herr => ?_⟩
  · rw [if_pos ((gainInvalid_iff _ _).mpr hasked)] at hchecks
    exact readAll_refused hidle hchecks
  · rw [if_neg (mt (gainInvalid_iff _ _).mp hasked)] at hchecks
    obtain ⟨t, ht⟩ := exec_progress i s
    rw [exec_of_sequence hq] at ht
    exact ⟨t, ht, (readAll_reaches hchecks ht).err_ne_four (by simp [State.entered]) herr⟩

/-! ## The poll that reaches the limit (43_sequencer.md R183) -/

/-- Settles O35: the turn of the wait raises `ConversionTimeout`, which ends the step. -/
theorem timeoutAbortsWithoutRestoring : Obligations.TimeoutAbortsWithoutRestoring := by
  unfold Obligations.TimeoutAbortsWithoutRestoring
  intro s op limit bytes polls later hinv henv hlimit hreached
  obtain ⟨after, hturn⟩ := transition_of_sequenceInv hinv
  have hpoll := Bus.poll_script s.bus true bytes polls later henv
  rw [waitReady_timeout false after limit hinv.pollBound (by rw [hpoll]) hlimit hreached, hpoll] at hturn
  rw [step_of_sequenceInv hinv, maxTransitions, runTransitions_idle hturn rfl]
  rfl

end Sys2Proof.Machine

namespace Sys2Proof.Machine

open Sys2Proof.Safety
open Host (Outcome)

/-! ## The data reads of a run (43_sequencer.md R170, R171, R181) -/

/-- From `s` to `t` a sequence has made some data reads and stored them. -/
def ReadsOn (s t : State) : Prop := ∃ reads, ReadsStored s t s.nvalid.val reads

/-- No data read is made, and no sample register is written. -/
theorem readsStored_nil {s t : State} {first : Nat}
    (htrace : dataReads t.bus.trace = dataReads s.bus.trace) (hn : t.nvalid.val = first)
    (hch : t.ch = s.ch) (hsr : t.sr = s.sr) : ReadsStored s t first [] where
  traced := by simp [htrace]
  counted := by simp [hn]
  stored := by simp
  kept := fun _ _ => by rw [hch]
  last := by simp [hsr]

/-- One data read is made and stored in the channel that is next. -/
theorem readsStored_one {s t : State} {d : DataBytes} (k : Fin 4) (hk : s.nvalid.val = k.val)
    (htrace : dataReads t.bus.trace = dataReads s.bus.trace ++ [d])
    (hn : t.nvalid.val = k.val + 1) (hch : t.ch = s.ch.write k d.sample) (hsr : t.sr = d.sample) :
    ReadsStored s t s.nvalid.val [d] where
  traced := htrace
  counted := by simp [hn, hk]
  stored := by
    intro n j e hj he
    obtain ⟨rfl, rfl⟩ : n = 0 ∧ d = e := by
      cases n <;> simp_all
    obtain rfl : j = k := Fin.ext (by omega)
    rw [hch, Channels.read_write_same]
  kept := by
    intro j hj
    rw [hch, Channels.read_write_other _ _ _ _ (by rintro rfl; omega)]
  last := by simp [hsr]

/-- The data reads of two runs, one after the other. -/
theorem readsStored_append {s t u : State} {first : Nat} {reads more : List DataBytes}
    (hst : ReadsStored s t first reads) (htu : ReadsStored t u t.nvalid.val more) :
    ReadsStored s u first (reads ++ more) where
  traced := by rw [htu.traced, hst.traced, List.append_assoc]
  counted := by rw [htu.counted, hst.counted, List.length_append, Nat.add_assoc]
  stored := by
    intro n j d hj hd
    have hcount := hst.counted
    by_cases hn : n < reads.length
    · rw [List.getElem?_append_left hn] at hd
      rw [htu.kept j (.inl (by omega))]
      exact hst.stored n j d hj hd
    · rw [List.getElem?_append_right (by omega)] at hd
      exact htu.stored (n - reads.length) j d (by omega) hd
  kept := by
    intro j hj
    have hcount := hst.counted
    have hcount' := htu.counted
    rw [htu.kept j (by omega), hst.kept j (by omega)]
  last := by
    rw [htu.last, hst.last, List.getLast?_append]
    cases more.getLast? <;> simp

theorem ReadsOn.refl (s : State) : ReadsOn s s := ⟨[], readsStored_nil rfl rfl rfl rfl⟩

theorem ReadsOn.trans {s t u : State} (hst : ReadsOn s t) (htu : ReadsOn t u) : ReadsOn s u := by
  obtain ⟨reads, hst⟩ := hst
  obtain ⟨more, htu⟩ := htu
  exact ⟨reads ++ more, readsStored_append hst htu⟩

/-- A pipelined burst answers the sample of three received bytes, which the trace shows. -/
theorem Bus.xrdwr_sample (b : Bus) (p : Params) (v : Byte) : ∃ d : DataBytes,
    (b.xrdwr p v).1 = d.sample ∧
      (b.xrdwr p v).2.trace = b.trace ++ (FrameShape.xrdwr v d.b0 d.b1 d.b2).events p := by
  obtain ⟨b0, b1, b2, hsample, htrace⟩ := b.xrdwr_spec p v
  exact ⟨⟨b0, b1, b2⟩, by rw [hsample, DataBytes.sample_eq_sdec], htrace⟩

/-- A Configuring step sends one frame, no data read, or comes after a burst and sends none. -/
theorem configure_trace (op : Latch) (s : State) :
    ((op.mode = .cc ∧ 1 ≤ s.k.val) ∧ (configure op s).bus.trace = s.bus.trace) ∨
    ((op.mode = .ss ∨ s.k.val = 0) ∧ ∃ f, dataReadOf f = [] ∧
      (configure op s).bus.trace = s.bus.trace ++ FrameShape.events s.params f) := by
  rcases configure_conditions op s with ⟨hm, hk⟩ | ⟨h, hv | ⟨hv, hskip⟩⟩
  · exact .inl ⟨⟨hm, hk⟩, by rw [configure_pipelined hm hk]⟩
  · rw [configure_writes h hv]
    exact .inr ⟨h, _, rfl, Bus.wreg1_trace _ _ _ _⟩
  · rw [configure_restarts h hv hskip]
    exact .inr ⟨h, _, rfl, Bus.startSync_trace _ _⟩

theorem configure_readsOn (op : Latch) (s : State) (after : Phase) :
    ReadsOn s { configure op s with phase := after } := by
  refine ⟨[], readsStored_nil ?_ (by simp) (by simp) (by simp)⟩
  obtain ⟨_, htrace⟩ | ⟨_, f, hf, htrace⟩ := configure_trace op s
  · exact congrArg dataReads htrace
  · simp [htrace, hf]

theorem startSync_readsOn (s : State) : ReadsOn s { s with bus := s.bus.startSync s.params } :=
  ⟨[], readsStored_nil (by simp [Bus.startSync_trace, dataReadOf]) rfl rfl rfl⟩

/-- A turn of a wait reads no data, however it ends. -/
theorem waitReady_readsOn {first : Bool} {after : Phase} {s t : State}
    (h : waitReady first after s = .next t) : ReadsOn s t := by
  obtain ⟨_, ⟨_, rfl⟩ | ⟨_, rfl, _⟩ | ⟨_, rfl, _⟩⟩ := waitReady_cases h <;>
    exact ⟨[], readsStored_nil (by simp) rfl rfl rfl⟩

/-- A read is one data read, stored in the channel it is for. -/
theorem readingPhase_readsOn {op : Latch} {s t : State} (h : readingPhase op s = .next t)
    (hk : s.nvalid.val = s.k.val) : ReadsOn s t := by
  obtain ⟨_, rfl⟩ | ⟨_, _, rfl⟩ := readingPhase_cases h
  · obtain ⟨d, hsample, htrace, _⟩ := s.bus.rdata_sample s.params
    refine ⟨[d], readsStored_one s.k hk ?_ ?_ ?_ ?_⟩ <;> simp [hsample, htrace, dataReadOf]
  · obtain ⟨d, hsample, htrace⟩ := s.bus.xrdwr_sample s.params (nextValue op s)
    refine ⟨[d], readsStored_one s.k hk ?_ ?_ ?_ ?_⟩ <;> simp [hsample, htrace, dataReadOf]

/-! ## Where a sequence stands after its entry (43_sequencer.md R179) -/

/-- `R0S` is `ORIG`, and the last frame on the bus wrote `ORIG` to register 0 (43_sequencer.md R172). -/
def Restored (op : Latch) (s : State) : Prop :=
  s.r0s = s.orig ∧ ∃ before : List Event,
    (op.mode = .ss → s.bus.trace = before ++ (FrameShape.wreg1 0 s.orig).events s.params) ∧
    (op.mode = .cc → ∃ b0 b1 b2,
      s.bus.trace = before ++ (FrameShape.xrdwr s.orig b0 b1 b2).events s.params)

/-- The sequence is at a channel, of which those before it are read; or all are read and it is about to
restore, which the last burst of a continuous one has done; or it has ended, and then restored unless
`ERR` tells otherwise. -/
inductive Stands (op : Latch) (s : State) : Prop where
  | atChannel (latched : s.latch = some op)
      (phase : s.phase = .waking ∨ s.phase = .configuring ∨ s.phase = .converting ∨ s.phase = .reading)
      (inRange : s.k.val < op.top.channels) (counted : s.nvalid.val = s.k.val)
  | restoring (latched : s.latch = some op) (phase : s.phase = .restoring)
      (counted : s.nvalid.val = op.top.channels) (written : op.mode = .cc → Restored op s)
  | ended (phase : s.phase = .idle)
      (completed : s.err = 0 → s.nvalid.val = op.top.channels ∧ Restored op s)

theorem stands_entered (op : Latch) (s : State) : Stands op (s.entered op) :=
  .atChannel rfl (.inl rfl) (by show 0 < op.top.channels; cases op.top <;> decide) rfl

theorem stands_of_sequenceInv {s : State} {op : Latch} (h : SequenceInv s op) : Stands op s :=
  .atChannel h.latched (by rcases sequenceInv_phase h with hp | hp <;> simp [hp]) h.inRange h.valid

theorem Stands.phase_ne_entry {op : Latch} {s : State} (h : Stands op s) : s.phase ≠ .entry := by
  rcases h with ⟨_, hp | hp | hp | hp, _, _⟩ | ⟨_, hp, _, _⟩ | ⟨hp, _⟩ <;> simp [hp]

/-- A turn of a wait keeps the channel, or ends the sequence with an `ERR`. -/
theorem waitReady_stands {op : Latch} {first : Bool} {after : Phase} {s t : State}
    (h : waitReady first after s = .next t) (hl : s.latch = some op)
    (hp : s.phase = .waking ∨ s.phase = .converting) (ha : after = .configuring ∨ after = .reading)
    (hk : s.k.val < op.top.channels) (hn : s.nvalid.val = s.k.val) : Stands op t := by
  obtain ⟨_, ⟨_, rfl⟩ | ⟨_, rfl, _⟩ | ⟨_, rfl, _⟩⟩ := waitReady_cases h
  · exact .atChannel hl (by rcases ha with rfl | rfl <;> simp) hk hn
  · exact .atChannel hl (by rcases hp with hp | hp <;> simp [hp]) hk hn
  · exact .ended rfl (by simp [Error.code])

/-- No topology has more channels than there are channel registers. -/
theorem Topology.channels_le (top : Topology) : top.channels ≤ 4 := by
  cases top <;> decide

/-- The channel after one that is not the last. -/
theorem val_add_one_of_more {k : Fin 4} {op : Latch} (h : k.val + 1 < op.top.channels) :
    (k + 1).val = k.val + 1 := by
  have := op.top.channels_le
  exact Fin.val_add_one_of_lt (Fin.lt_def.mpr (show k.val < 3 by omega))

/-- When channel `K` is read the sequence goes on to the next one, or restores after the last. -/
theorem State.advance_stands {s : State} {op : Latch} (hl : s.latch = some op)
    (hk : s.k.val < op.top.channels) (hn : s.nvalid.val = s.k.val + 1)
    (hwritten : ¬ s.k.val + 1 < op.top.channels → op.mode = .cc → Restored op s) :
    Stands op (s.advance op) := by
  by_cases hmore : s.k.val + 1 < op.top.channels
  · rw [State.advance_of_more s op hmore]
    exact .atChannel hl (.inr (.inl rfl)) ((val_add_one_of_more hmore).trans_lt hmore)
      (hn.trans (val_add_one_of_more hmore).symm)
  · rw [State.advance_of_last s op hmore]
    exact .restoring hl rfl (show s.nvalid.val = _ by omega) (hwritten hmore)

/-- The last burst of a continuous sequence writes `ORIG` (43_sequencer.md R171, R172). -/
theorem readingPhase_stands {op : Latch} {s t : State} (h : readingPhase op s = .next t)
    (hl : s.latch = some op) (hk : s.k.val < op.top.channels) : Stands op t := by
  obtain ⟨hm, rfl⟩ | ⟨_, _, rfl⟩ := readingPhase_cases h
  · exact State.advance_stands (by exact hl) hk rfl (by simp [hm])
  · refine State.advance_stands (by exact hl) hk rfl fun hlast hm => ?_
    have hnext : nextValue op s = s.orig := if_neg hlast
    obtain ⟨d, _, htrace⟩ := s.bus.xrdwr_sample s.params (nextValue op s)
    rw [hnext] at htrace ⊢
    exact ⟨rfl, s.bus.trace, by simp [hm], fun _ => ⟨_, _, _, htrace⟩⟩

/-- Every transition after the entry keeps to the course of a sequence, and stores what it reads. -/
theorem transition_stands {op : Latch} {s t : State} (hs : Stands op s) (h : transition s = .next t) :
    Stands op t ∧ ReadsOn s t := by
  cases hs with
  | ended hp hcompleted =>
    rw [transition_idle hp] at h
    cases h
    exact ⟨.ended hp hcompleted, .refl s⟩
  | restoring hl hp hn hwritten =>
    rw [transition_restoring hp hl] at h
    cases hm : op.mode with
    | ss =>
      rw [restoringPhase_plain hm] at h
      cases h
      refine ⟨.ended rfl fun _ => ⟨hn, rfl, s.bus.trace, fun _ => ?_, by simp [hm]⟩, ?_⟩
      · exact Bus.wreg1_trace _ _ _ _
      · exact ⟨[], readsStored_nil (by simp [Bus.wreg1_trace, dataReadOf]) rfl rfl rfl⟩
    | cc =>
      rw [restoringPhase_pipelined hm] at h
      cases h
      exact ⟨.ended rfl fun _ => ⟨hn, hwritten hm⟩, [], readsStored_nil rfl rfl rfl rfl⟩
  | atChannel hl hp hk hn =>
    rcases hp with hp | hp | hp | hp
    · rw [transition_waking hp hl] at h
      cases hw : s.params.wake with
      | false =>
        rw [wakingPhase_without_wake hw] at h
        cases h
        exact ⟨.atChannel hl (.inr (.inl rfl)) hk hn, [], readsStored_nil rfl rfl rfl rfl⟩
      | true =>
        cases hwt : s.waiting with
        | true =>
          rw [wakingPhase_waits hw hwt] at h
          exact ⟨waitReady_stands h hl (.inl hp) (.inl rfl) hk hn, waitReady_readsOn h⟩
        | false =>
          rw [wakingPhase_starts hw hwt] at h
          exact ⟨waitReady_stands h hl (.inl hp) (.inl rfl) hk hn,
            (startSync_readsOn s).trans (waitReady_readsOn h)⟩
    · rw [transition_configuring hp hl] at h
      cases h
      exact ⟨.atChannel (by simp [hl]) (by simp) (by simpa using hk) (by simpa using hn),
        configure_readsOn op s _⟩
    · rw [transition_converting hp hl] at h
      exact ⟨waitReady_stands h hl (.inr hp) (.inr rfl) hk hn, waitReady_readsOn h⟩
    · rw [transition_reading hp hl] at h
      exact ⟨readingPhase_stands h hl hk, readingPhase_readsOn h hn⟩

theorem Reaches.stands {op : Latch} {s t : State} (h : Reaches s t) (hs : Stands op s) :
    Stands op t ∧ ReadsOn s t := by
  refine h.keeps (P := fun t => Stands op t ∧ ReadsOn s t) ?_ ⟨hs, .refl s⟩
  rintro t u ⟨ht, hst⟩ htu
  obtain ⟨hu, hreads⟩ := transition_stands ht htu
  exact ⟨hu, hst.trans hreads⟩

/-- A sequence that has ended without an `ERR` has read all its channels and restored register 0. -/
theorem Stands.completed {op : Latch} {s : State} (h : Stands op s) (hp : s.phase = .idle)
    (he : s.err = 0) : s.nvalid.val = op.top.channels ∧ Restored op s := by
  cases h with
  | ended _ hcompleted => exact hcompleted he
  | restoring _ hp' => simp [hp] at hp'
  | atChannel _ hp' => simp [hp] at hp'

/-- After a data read `SR` is the channel register stored last (43_sequencer.md R173). -/
theorem sr_eq_last_channel {s t : State} {first : Nat} {reads : List DataBytes}
    (h : ReadsStored s t first reads) (hne : reads ≠ []) :
    ∃ j : Fin 4, j.val + 1 = t.nvalid.val ∧ t.sr = t.ch.read j := by
  have hlen : 0 < reads.length := List.length_pos_iff.mpr hne
  have hcount := h.counted
  have hlast : reads[reads.length - 1]? = some (reads.getLast hne) := by
    rw [← List.getLast?_eq_getElem?, List.getLast?_eq_some_getLast hne]
  refine ⟨⟨first + (reads.length - 1), by omega⟩, show first + (reads.length - 1) + 1 = _ by omega, ?_⟩
  rw [h.stored (reads.length - 1) _ _ rfl hlast, h.last, List.getLast?_eq_some_getLast hne]
  rfl

/-! ## What a sequence stores -/

/-- The entry makes no data read. -/
theorem entered_readsStored (op : Latch) (s : State) : ReadsStored s (s.entered op) 0 [] :=
  readsStored_nil (by simp [State.entered, Bus.rreg_trace, dataReadOf]) rfl rfl rfl

theorem reads_of_entered {op : Latch} {s t : State} (h : Reaches (s.entered op) t) :
    ∃ reads, ReadsStored s t 0 reads := by
  obtain ⟨_, reads, hreads⟩ := h.stands (stands_entered op s)
  exact ⟨[] ++ reads, readsStored_append (entered_readsStored op s) hreads⟩

/-- Settles O28: every transition stores the data reads it makes, so every run of transitions does. -/
theorem sequenceStepsStoreWhatTheyRead : Obligations.SequenceStepsStoreWhatTheyRead := by
  unfold Obligations.SequenceStepsStoreWhatTheyRead
  refine ⟨fun i op s t hq _ hchecks h => ?_, fun op s t hinv h => ?_⟩
  · rw [exec_of_sequence hq] at h
    exact reads_of_entered (readAll_reaches hchecks h)
  · rw [step_of_sequenceInv hinv] at h
    exact ((reaches_of_runTransitions h).stands (stands_of_sequenceInv hinv)).2

/-- A sequence accepted by an idle block that ends with `ERR` 0 has passed its checks, and went on from
its entry to its end, over all its steps. -/
theorem reaches_of_completed {i : Instr} {op : Latch} {s t u : State} {n : Nat}
    (hq : sequenceOf i = some op) (hidle : BlockIdle s) (hpending : s.pending = [])
    (hexec : exec i s = .next t) (hrun : runSteps n t = .next u) (he : u.err = 0) :
    Reaches (s.entered op) u := by
  rw [exec_of_sequence hq] at hexec
  cases hchecks : entryError s op with
  | none =>
    have hst := readAll_reaches hchecks hexec
    exact hst.trans (reaches_of_runSteps (hst.pending.trans hpending) hrun)
  | some e =>
    rw [readAll_refused hidle hchecks] at hexec
    obtain rfl := Outcome.next.inj hexec
    have hstays := (reaches_of_runSteps (s := { s with err := e.code }) hpending hrun).eq_of_idle hidle.1
    rw [hstays] at he
    cases e <;> simp [Error.code] at he

/-- Settles O29: a completed sequence has counted `N` channels from its entry on, and stored each of the
data reads it counted. -/
theorem completedSequenceDecodesItsReads : Obligations.CompletedSequenceDecodesItsReads := by
  unfold Obligations.CompletedSequenceDecodesItsReads
  intro i op s t u n hq hidle hpending hexec hrun hp he
  have hreach := reaches_of_completed hq hidle hpending hexec hrun he
  obtain ⟨hcount, _⟩ := (hreach.stands (stands_entered op s)).1.completed hp he
  obtain ⟨reads, hreads⟩ := reads_of_entered hreach
  exact ⟨reads, by have := hreads.counted; omega, hreads⟩

/-- Settles O49: the step that completes stores the channels that were left, of which there is at least
the one it waited for, and its last frame restores. -/
theorem completedSequenceRestoresRegisterZero :
    Obligations.CompletedSequenceRestoresRegisterZero := by
  unfold Obligations.CompletedSequenceRestoresRegisterZero
  intro s t op hinv h hp he
  have hs := stands_of_sequenceInv hinv
  rw [step_of_sequenceInv hinv] at h
  obtain ⟨ht, reads, hreads⟩ := (reaches_of_runTransitions h).stands hs
  obtain ⟨hcount, hr0s, hlast⟩ := ht.completed hp he
  have hlen := hreads.counted
  have hk := hinv.inRange
  rw [hinv.valid] at hlen hreads
  have hne : reads ≠ [] := by
    rintro rfl
    simp only [List.length_nil] at hlen
    omega
  refine ⟨runTransitions_orig h hs.phase_ne_entry, hr0s, hcount, ?_, ⟨reads, by omega, hreads⟩, hlast⟩
  rw [← hcount]
  exact sr_eq_last_channel hreads hne

/-! ## The device registers under the reference environment (43_sequencer.md R180) -/

/-- The entry reads `ORIG` back from device register 0 and leaves the device as it was. -/
theorem entered_resident {op : Latch} {s : State} {regs : DeviceRegs} (h : ReferenceAt s regs) :
    (s.entered op).orig = regs.reg0 ∧ ResidentAt regs (s.entered op) := by
  obtain ⟨hat, hread⟩ := Bus.rreg_reference (p := s.params) 0 h
  have horig : (s.bus.rreg s.params 0).1 = regs.reg0 := hread
  refine ⟨horig, ?_⟩
  show Bus.AtReference _ { regs with reg0 := (s.bus.rreg s.params 0).1 }
  rw [horig]
  exact hat

/-- After the entry `ORIG` is kept, and device register 0 goes with `R0S`. -/
theorem Reaches.resident {s t : State} {regs : DeviceRegs} (h : Reaches s t) (hp : s.phase ≠ .entry)
    (hr : ResidentAt regs s) : t.orig = s.orig ∧ ResidentAt regs t := by
  have hkept : t.phase ≠ .entry ∧ t.orig = s.orig ∧ ResidentAt regs t := by
    refine h.keeps (P := fun t => t.phase ≠ .entry ∧ t.orig = s.orig ∧ ResidentAt regs t) ?_ ⟨hp, rfl, hr⟩
    rintro t u ⟨hp, horig, hr⟩ h
    obtain ⟨_, _, _, _, _, hkept⟩ := transition_frame h
    exact ⟨transition_phase_ne_entry h, (hkept hp).trans horig, transition_resident h hr⟩
  exact hkept.2

/-- Settles O50: device register 0 holds `R0S` all along, and at the end `R0S` is `ORIG`, the byte read
from it at the entry. -/
theorem referenceDeviceRegistersAreRestored : Obligations.ReferenceDeviceRegistersAreRestored := by
  unfold Obligations.ReferenceDeviceRegistersAreRestored
  intro i op s t u regs n hq hidle hpending hat hexec hrun hp he
  have hreach := reaches_of_completed hq hidle hpending hexec hrun he
  obtain ⟨_, hr0s, _⟩ := (hreach.stands (stands_entered op s)).1.completed hp he
  obtain ⟨horig, hresident⟩ := entered_resident (op := op) hat
  obtain ⟨hkept, hend⟩ := hreach.resident (by simp [State.entered]) hresident
  unfold ResidentAt at hend
  rw [hr0s, hkept, horig] at hend
  exact hend

end Sys2Proof.Machine

namespace Sys2Proof.Machine

open Sys2Proof.Safety
open Host (Outcome)

/-! ## The channels of a sequence, whatever their waits take (43_sequencer.md R168 to R172) -/

section
variable (op : Latch) (s : State) (d : DataBytes) (n : Nat) (bytes : List Byte) (polls : List Bool)
  (later : Option Bool) (hl : s.latch = some op) (hph : s.phase = .configuring)
  (hw : s.waiting = false) (hd : s.params.capDrdy = true) (hn : BelowLimit s.params n)
  (he : s.bus.env = .script (d.bytes ++ bytes) (waitPolls n ++ polls) later)
include hl hph hw hd hn he

/-- A channel of a single-shot sequence that is not the last: the next one is configured. -/
theorem goes_channel_plain_more (hm : op.mode = .ss) (hmore : s.k.val + 1 < op.top.channels)
    {F m : Nat} {u : State} (hF : F + 2 ≤ maxTransitions)
    (g : GoesTo F m { s with
      phase := .configuring, k := s.k + 1, r0s := s.channelValue op s.k, pcnt := n, waiting := false
      sr := d.sample, ch := s.ch.write s.k d.sample, nvalid := s.k.succ
      bus := ⟨s.bus.trace ++ configureEvents s.params (s.channelValue op s.k) s.r0s ++
        plainRead s.params n d, .script bytes polls later, s.bus.draws⟩ } u) :
    GoesTo (F + 3) (m + n) s u := by
  refine goes_channel_plain op s d n bytes polls later hl hph hm hw hd hn he hF ?_
  rw [State.advance_of_more _ op (by exact hmore), ← DataBytes.sample_eq_sdec]
  exact g

/-- The last channel of a single-shot sequence, and the restore. -/
theorem goes_channel_plain_last (hm : op.mode = .ss) (hlast : ¬ s.k.val + 1 < op.top.channels)
    {u : State} (hu : { s with
      phase := .idle, k := 0, latch := none, r0s := s.orig, pcnt := n, waiting := false, err := 0
      sr := d.sample, ch := s.ch.write s.k d.sample, nvalid := s.k.succ
      bus := ⟨s.bus.trace ++ configureEvents s.params (s.channelValue op s.k) s.r0s ++
        plainRead s.params n d ++ (FrameShape.wreg1 0 s.orig).events s.params,
        .script bytes polls later, s.bus.draws⟩ } = u) : GoesTo 4 n s u := by
  subst hu
  rw [show GoesTo 4 n = GoesTo (1 + 3) (0 + n) by rw [Nat.zero_add]]
  refine goes_channel_plain op s d n bytes polls later hl hph hm hw hd hn he (by decide) ?_
  rw [State.advance_of_last _ op (by exact hlast), ← DataBytes.sample_eq_sdec]
  exact goes_restore_plain op _ (by exact hl) rfl hm bytes polls later rfl

/-- A channel of a continuous sequence that is not the last: its burst writes the next one's value. -/
theorem goes_channel_pipelined_more (hm : op.mode = .cc) (hx : s.params.capXfer = true)
    (hmore : s.k.val + 1 < op.top.channels) {F m : Nat} {u : State} (hF : F + 2 ≤ maxTransitions)
    (g : GoesTo F m { s with
      phase := .configuring, k := s.k + 1, r0s := s.channelValue op (s.k + 1), pcnt := n
      waiting := false, sr := d.sample, ch := s.ch.write s.k d.sample, nvalid := s.k.succ
      bus := ⟨s.bus.trace ++
        (if s.k.val = 0 then configureEvents s.params (s.channelValue op s.k) s.r0s else []) ++
        burstRead s.params n (s.channelValue op (s.k + 1)) d, .script bytes polls later,
        s.bus.draws⟩ } u) :
    GoesTo (F + 3) (m + n) s u := by
  have hnext : nextValue op s = s.channelValue op (s.k + 1) := if_pos hmore
  refine goes_channel_pipelined op s d n bytes polls later hl hph hm hw hd hx hn he hF ?_
  rw [State.advance_of_more _ op (by exact hmore), ← DataBytes.sample_eq_sdec, hnext]
  exact g

/-- The last channel of a continuous sequence: its burst restores. -/
theorem goes_channel_pipelined_last (hm : op.mode = .cc) (hx : s.params.capXfer = true)
    (hlast : ¬ s.k.val + 1 < op.top.channels)
    {u : State} (hu : { s with
      phase := .idle, k := 0, latch := none, r0s := s.orig, pcnt := n, waiting := false, err := 0
      sr := d.sample, ch := s.ch.write s.k d.sample, nvalid := s.k.succ
      bus := ⟨s.bus.trace ++
        (if s.k.val = 0 then configureEvents s.params (s.channelValue op s.k) s.r0s else []) ++
        burstRead s.params n s.orig d, .script bytes polls later, s.bus.draws⟩ } = u) : GoesTo 4 n s u := by
  subst hu
  have hnext : nextValue op s = s.orig := if_neg hlast
  rw [show GoesTo 4 n = GoesTo (1 + 3) (0 + n) by rw [Nat.zero_add]]
  refine goes_channel_pipelined op s d n bytes polls later hl hph hm hw hd hx hn he (by decide) ?_
  rw [State.advance_of_last _ op (by exact hlast), ← DataBytes.sample_eq_sdec, hnext]
  exact goes_restore_pipelined op _ hl rfl hm

end

/-! ## The four operations to their end (43_sequencer.md R175 to R178) -/

/-- A step has fuel enough for all the transitions of a sequence. -/
theorem exec_of_goesTo {i : Instr} {op : Latch} {s u : State} {F m : Nat}
    (hq : sequenceOf i = some op) (hF : F ≤ maxTransitions) (h : GoesTo F m (s.accept op) u) :
    ∃ t, exec i s = .next t ∧ runSteps m t = .next u := by
  rw [exec_of_sequence hq]
  exact h maxTransitions hF

theorem entryError_eq_none {s : State} {op : Latch} (hi : s.inited = true)
    (hpoll : s.params.capDrdy = true) (hxfer : op.mode = .cc → s.params.capXfer = true)
    (hgain : ¬ (s.params.checkGain = true ∧ op.top = .se ∧ ∃ k g, op.ovr k = some g ∧ g.toNat > 2)) :
    entryError s op = none := by
  rw [entryError_of_bound hi (capabilityMissing_eq_false.mpr ⟨hpoll, hxfer⟩),
    if_neg (mt (gainInvalid_iff _ _).mp hgain)]

/-- Settles O23: the opening, two channels and the restore, one after another. -/
theorem differentialSingleShotSequenceCompletes :
    Obligations.DifferentialSingleShotSequenceCompletes := by
  unfold Obligations.DifferentialSingleShotSequenceCompletes
  intro ovm g0 g1 s orig d0 d1 w n0 n1 bytes polls later hi hpoll hw h0 h1 waits henv op v0 v1
  have hchecks : entryError s op = none := entryError_eq_none hi hpoll nofun (by simp [op, latchDiff])
  have hcount : waits.count true = n1 + n0 + (wakePolls s.params w).count true := by
    simp [waits]; omega
  rw [hcount]
  refine exec_of_goesTo (op := op) (F := 9) rfl (by decide) ?_
  refine goes_opening op s orig w (d0.bytes ++ (d1.bytes ++ bytes))
    (waitPolls n0 ++ (waitPolls n1 ++ polls)) later hchecks hpoll hw (by simpa [waits] using henv)
    (by decide) ?_
  refine goes_channel_plain_more op _ d0 n0 (d1.bytes ++ bytes) (waitPolls n1 ++ polls) later
    rfl rfl rfl (by exact hpoll) (by exact h0) rfl rfl (show 0 + 1 < 2 by decide) (by decide) ?_
  refine goes_channel_plain_last op _ d1 n1 bytes polls later rfl rfl rfl (by exact hpoll)
    (by exact h1) rfl rfl (show ¬ 1 + 1 < 2 by decide) ?_
  simp only [List.append_assoc]
  rfl

/-- Settles O24: the opening, a burst that writes the second channel's value, and one that restores. -/
theorem differentialContinuousSequenceCompletes :
    Obligations.DifferentialContinuousSequenceCompletes := by
  unfold Obligations.DifferentialContinuousSequenceCompletes
  intro ovm g0 g1 s orig d0 d1 w n0 n1 bytes polls later hi hpoll hxfer hw h0 h1 waits henv op v0 v1
  have hchecks : entryError s op = none :=
    entryError_eq_none hi hpoll (fun _ => hxfer) (by simp [op, latchDiff])
  have hcount : waits.count true = n1 + n0 + (wakePolls s.params w).count true := by
    simp [waits]; omega
  rw [hcount]
  refine exec_of_goesTo (op := op) (F := 9) rfl (by decide) ?_
  refine goes_opening op s orig w (d0.bytes ++ (d1.bytes ++ bytes))
    (waitPolls n0 ++ (waitPolls n1 ++ polls)) later hchecks hpoll hw (by simpa [waits] using henv)
    (by decide) ?_
  refine goes_channel_pipelined_more op _ d0 n0 (d1.bytes ++ bytes) (waitPolls n1 ++ polls) later
    rfl rfl rfl (by exact hpoll) (by exact h0) rfl rfl (by exact hxfer) (show 0 + 1 < 2 by decide)
    (by decide) ?_
  refine goes_channel_pipelined_last op _ d1 n1 bytes polls later rfl rfl rfl (by exact hpoll)
    (by exact h1) rfl rfl (by exact hxfer) (show ¬ 1 + 1 < 2 by decide) ?_
  simp only [List.append_assoc]
  rfl

/-- The gain check passes when it is off or no requested code is above 2 (43_sequencer.md R163). -/
theorem entryError_se_eq_none {s : State} {op : Latch} (hi : s.inited = true)
    (hpoll : s.params.capDrdy = true) (hxfer : op.mode = .cc → s.params.capXfer = true)
    (hgain : s.params.checkGain = true → ∀ k g, op.ovr k = some g → g.toNat ≤ 2) :
    entryError s op = none := by
  refine entryError_eq_none hi hpoll hxfer ?_
  rintro ⟨hon, _, k, g, hg, hhigh⟩
  exact Nat.not_lt.mpr (hgain hon k g hg) hhigh

/-- Settles O25: the opening, four channels and the restore, one after another. -/
theorem singleEndedSingleShotSequenceCompletes :
    Obligations.SingleEndedSingleShotSequenceCompletes := by
  unfold Obligations.SingleEndedSingleShotSequenceCompletes
  intro ovm g0 g1 g2 g3 s orig d0 d1 d2 d3 w n0 n1 n2 n3 bytes polls later hi hpoll hgain hw h0 h1 h2 h3
    waits henv op v0 v1 v2 v3
  have hchecks : entryError s op = none := entryError_se_eq_none hi hpoll nofun hgain
  have hcount : waits.count true = n3 + n2 + n1 + n0 + (wakePolls s.params w).count true := by
    simp [waits]; omega
  rw [hcount]
  refine exec_of_goesTo (op := op) (F := 15) rfl (by decide) ?_
  refine goes_opening op s orig w (d0.bytes ++ (d1.bytes ++ (d2.bytes ++ (d3.bytes ++ bytes))))
    (waitPolls n0 ++ (waitPolls n1 ++ (waitPolls n2 ++ (waitPolls n3 ++ polls)))) later hchecks hpoll hw
    (by simpa [waits] using henv) (by decide) ?_
  refine goes_channel_plain_more op _ d0 n0 _ _ later rfl rfl rfl (by exact hpoll) (by exact h0) rfl rfl
    (show 0 + 1 < 4 by decide) (by decide) ?_
  refine goes_channel_plain_more op _ d1 n1 _ _ later rfl rfl rfl (by exact hpoll) (by exact h1) rfl rfl
    (show 1 + 1 < 4 by decide) (by decide) ?_
  refine goes_channel_plain_more op _ d2 n2 _ _ later rfl rfl rfl (by exact hpoll) (by exact h2) rfl rfl
    (show 2 + 1 < 4 by decide) (by decide) ?_
  refine goes_channel_plain_last op _ d3 n3 _ _ later rfl rfl rfl (by exact hpoll) (by exact h3) rfl rfl
    (show ¬ 3 + 1 < 4 by decide) ?_
  simp only [List.append_assoc]
  rfl

/-- Settles O26: the opening, three bursts that write the next channel's value, and one that restores. -/
theorem singleEndedContinuousSequenceCompletes :
    Obligations.SingleEndedContinuousSequenceCompletes := by
  unfold Obligations.SingleEndedContinuousSequenceCompletes
  intro ovm g0 g1 g2 g3 s orig d0 d1 d2 d3 w n0 n1 n2 n3 bytes polls later hi hpoll hxfer hgain hw h0 h1
    h2 h3 waits henv op v0 v1 v2 v3
  have hchecks : entryError s op = none := entryError_se_eq_none hi hpoll (fun _ => hxfer) hgain
  have hcount : waits.count true = n3 + n2 + n1 + n0 + (wakePolls s.params w).count true := by
    simp [waits]; omega
  rw [hcount]
  refine exec_of_goesTo (op := op) (F := 15) rfl (by decide) ?_
  refine goes_opening op s orig w (d0.bytes ++ (d1.bytes ++ (d2.bytes ++ (d3.bytes ++ bytes))))
    (waitPolls n0 ++ (waitPolls n1 ++ (waitPolls n2 ++ (waitPolls n3 ++ polls)))) later hchecks hpoll hw
    (by simpa [waits] using henv) (by decide) ?_
  refine goes_channel_pipelined_more op _ d0 n0 _ _ later rfl rfl rfl (by exact hpoll) (by exact h0) rfl
    rfl (by exact hxfer) (show 0 + 1 < 4 by decide) (by decide) ?_
  refine goes_channel_pipelined_more op _ d1 n1 _ _ later rfl rfl rfl (by exact hpoll) (by exact h1) rfl
    rfl (by exact hxfer) (show 1 + 1 < 4 by decide) (by decide) ?_
  refine goes_channel_pipelined_more op _ d2 n2 _ _ later rfl rfl rfl (by exact hpoll) (by exact h2) rfl
    rfl (by exact hxfer) (show 2 + 1 < 4 by decide) (by decide) ?_
  refine goes_channel_pipelined_last op _ d3 n3 _ _ later rfl rfl rfl (by exact hpoll) (by exact h3) rfl
    rfl (by exact hxfer) (show ¬ 3 + 1 < 4 by decide) ?_
  simp only [List.append_assoc]
  rfl

end Sys2Proof.Machine

namespace Sys2Proof.Machine

open Sys2Proof.Safety
open Host (Outcome)

/-! ## Counting frames and polls (43_sequencer.md R182) -/

@[simp] theorem frameCount_frame (p : Params) (f : FrameShape) (tr : List Event) :
    frameCount (tr ++ f.events p) = frameCount tr + 1 := by
  cases f <;> simp [frameCount, FrameShape.events, FrameShape.data]

@[simp] theorem pollCount_frame (p : Params) (f : FrameShape) (tr : List Event) :
    pollCount (tr ++ f.events p) = pollCount tr := by
  cases f <;> simp [pollCount, FrameShape.events, FrameShape.data]

@[simp] theorem frameCount_poll (c : Bool) (tr : List Event) :
    frameCount (tr ++ [.poll c]) = frameCount tr := by
  simp [frameCount]

@[simp] theorem pollCount_poll (c : Bool) (tr : List Event) :
    pollCount (tr ++ [.poll c]) = pollCount tr + 1 := by
  simp [pollCount]

/-! ### An environment that answers every poll "ready" -/

/-- Every poll will be answered "ready"; the bytes are any. -/
def Bus.AlwaysReady (b : Bus) : Prop := ∃ bytes, b.env = .script bytes [] (some false)

section
variable {b : Bus} (h : b.AlwaysReady)
include h

theorem Bus.AlwaysReady.poll : b.poll.1 = false ∧ b.poll.2.AlwaysReady := by
  obtain ⟨bytes, he⟩ := h
  rw [Bus.poll_later b false bytes he]
  exact ⟨rfl, bytes, rfl⟩

theorem Bus.AlwaysReady.sendFrame (tCs : Nat) (bytes : List Byte) :
    (b.sendFrame tCs bytes).AlwaysReady := by
  obtain ⟨_, he⟩ := h
  exact ⟨_, Bus.sendFrame_env_script b tCs bytes _ _ _ he⟩

theorem Bus.AlwaysReady.sel (active : Bool) : (b.sel active).AlwaysReady := by
  obtain ⟨bytes, he⟩ := h
  exact ⟨bytes, by simp [he]⟩

theorem Bus.AlwaysReady.dly (n : Nat) : (b.dly n).AlwaysReady := h

theorem Bus.AlwaysReady.tx (v : Byte) : (b.tx v).AlwaysReady := by
  obtain ⟨bytes, he⟩ := h
  exact ⟨bytes, by simp [he]⟩

theorem Bus.AlwaysReady.rx : b.rx.2.AlwaysReady := by
  obtain ⟨bytes, he⟩ := h
  exact ⟨bytes.tail, (Bus.rx_of_script he).1⟩

theorem Bus.AlwaysReady.xfer (u : Byte) : (b.xfer u).2.AlwaysReady := by
  obtain ⟨bytes, he⟩ := h
  exact ⟨bytes.tail, (Bus.xfer_of_script u he).1⟩

/-- A frame whose body leaves the environment ready does so too. -/
theorem Bus.AlwaysReady.frame {α : Type} (tCs : Nat) {body : Bus → α × Bus}
    (hbody : ∀ {b : Bus}, b.AlwaysReady → (body b).2.AlwaysReady) :
    (b.frame tCs body).2.AlwaysReady :=
  ((hbody ((h.sel true).dly tCs)).dly tCs).sel false

theorem Bus.AlwaysReady.rreg (p : Params) (a : RegAddr) : (b.rreg p a).2.AlwaysReady :=
  h.frame p.tCs fun h => (h.tx _).rx

theorem Bus.AlwaysReady.rdata (p : Params) : (b.rdata p).2.AlwaysReady :=
  h.frame p.tCs fun h => h.rx.rx.rx

theorem Bus.AlwaysReady.xrdwr (p : Params) (v : Byte) : (b.xrdwr p v).2.AlwaysReady :=
  h.frame p.tCs fun h => ((h.xfer 0x40).xfer v).xfer p.xferFill

end

theorem configure_alwaysReady (op : Latch) {s : State} (h : s.bus.AlwaysReady) :
    (configure op s).bus.AlwaysReady := by
  rcases configure_conditions op s with ⟨hm, hk⟩ | ⟨hi, hv | ⟨hv, hskip⟩⟩
  · rwa [configure_pipelined hm hk]
  · rw [configure_writes hi hv]
    exact h.sendFrame _ _
  · rw [configure_restarts hi hv hskip]
    exact h.sendFrame _ _

/-- A wait is over with its first poll. -/
theorem waitReady_of_alwaysReady {first : Bool} {after : Phase} {s t : State}
    (h : waitReady first after s = .next t) (hready : s.bus.AlwaysReady) :
    t = { s with
      bus := s.bus.poll.2, pcnt := if first then 0 else s.pcnt, waiting := false, phase := after } := by
  obtain ⟨_, ⟨_, ht⟩ | ⟨hb, _⟩ | ⟨hb, _⟩⟩ := waitReady_cases h
  · exact ht
  · simp [hready.poll.1] at hb
  · simp [hready.poll.1] at hb

/-! ### What is left of a sequence at each place -/

/-- The start/sync frames of the wake, and its polls: `W`. -/
def wakeCount (p : Params) : Nat := if p.wake then 1 else 0

/-- The frames of channel `k` and those after it, from the wait on, with the restore. -/
def framesFromWait (op : Latch) (k : Nat) : Nat :=
  match op.mode with
  | .ss => 2 * (op.top.channels - k)
  | .cc => op.top.channels - k

/-- Whether the Configuring step of channel `k` sends a frame. -/
def configuringFrames (op : Latch) (k : Nat) : Nat :=
  match op.mode with
  | .ss => 1
  | .cc => if k = 0 then 1 else 0

/-- The frames a sequence has still to send. -/
def framesLeft (op : Latch) (s : State) : Nat :=
  match s.phase with
  | .idle => 0
  | .entry => 1 + wakeCount s.params + channelFrames op
  | .waking => wakeCount s.params + configuringFrames op s.k.val + framesFromWait op s.k.val
  | .configuring => configuringFrames op s.k.val + framesFromWait op s.k.val
  | .converting => framesFromWait op s.k.val
  | .reading => framesFromWait op s.k.val
  | .restoring => match op.mode with | .ss => 1 | .cc => 0

/-- The polls a sequence has still to make when each is answered "ready". -/
def pollsLeft (op : Latch) (s : State) : Nat :=
  match s.phase with
  | .idle => 0
  | .entry => wakeCount s.params + op.top.channels
  | .waking => wakeCount s.params + (op.top.channels - s.k.val)
  | .configuring => op.top.channels - s.k.val
  | .converting => op.top.channels - s.k.val
  | .reading => op.top.channels - s.k.val - 1
  | .restoring => 0

/-- What a transition sends is no longer left: the sums stay as they are. -/
def SameTotals (op : Latch) (s t : State) : Prop :=
  frameCount t.bus.trace + framesLeft op t = frameCount s.bus.trace + framesLeft op s ∧
  pollCount t.bus.trace + pollsLeft op t = pollCount s.bus.trace + pollsLeft op s

theorem configure_frameCount (op : Latch) (s : State) : frameCount (configure op s).bus.trace =
    frameCount s.bus.trace + configuringFrames op s.k.val := by
  obtain ⟨⟨hm, hk⟩, htrace⟩ | ⟨h, f, _, htrace⟩ := configure_trace op s
  · have hnone : configuringFrames op s.k.val = 0 := by
      simp [configuringFrames, hm, Nat.one_le_iff_ne_zero.mp hk]
    rw [htrace, hnone, Nat.add_zero]
  · have hone : configuringFrames op s.k.val = 1 := by
      rcases h with h | h <;> cases hm : op.mode <;> simp_all [configuringFrames]
    rw [htrace, frameCount_frame, hone]

theorem configure_pollCount (op : Latch) (s : State) :
    pollCount (configure op s).bus.trace = pollCount s.bus.trace := by
  obtain ⟨_, htrace⟩ | ⟨_, f, _, htrace⟩ := configure_trace op s
  · rw [htrace]
  · rw [htrace, pollCount_frame]

/-- Going on from a channel that is read, in `r`: the read was one frame, and what is left goes down by
it. -/
theorem State.advance_totals {op : Latch} {s r : State} (hp : s.phase = .reading)
    (hk : s.k.val < op.top.channels) (hrk : r.k = s.k)
    (hframe : frameCount r.bus.trace = frameCount s.bus.trace + 1)
    (hpoll : pollCount r.bus.trace = pollCount s.bus.trace) : SameTotals op s (r.advance op) := by
  unfold SameTotals
  rw [State.advance_bus, hframe, hpoll]
  by_cases hmore : r.k.val + 1 < op.top.channels
  · have hnext := val_add_one_of_more hmore
    rw [State.advance_of_more r op hmore]
    rw [hrk] at hmore hnext
    cases hm : op.mode <;>
      simp only [framesLeft, pollsLeft, configuringFrames, framesFromWait, hm, hp, hrk, hnext,
        Nat.add_eq_zero_iff, Nat.one_ne_zero, and_false, if_false] <;>
      omega
  · rw [State.advance_of_last r op hmore]
    rw [hrk] at hmore
    cases hm : op.mode <;> simp only [framesLeft, pollsLeft, framesFromWait, hm, hp] <;> omega

/-- No wait is open, and none will be: every poll is answered "ready". -/
def Prompt (s : State) : Prop := s.waiting = false ∧ s.bus.AlwaysReady

theorem readingPhase_totals {op : Latch} {s t : State} (h : readingPhase op s = .next t)
    (hp : s.phase = .reading) (hk : s.k.val < op.top.channels) (hs : Prompt s) :
    Prompt t ∧ SameTotals op s t := by
  obtain ⟨hw, hready⟩ := hs
  obtain ⟨_, rfl⟩ | ⟨_, _, rfl⟩ := readingPhase_cases h
  · obtain ⟨d, _, htrace, _⟩ := s.bus.rdata_sample s.params
    exact ⟨⟨by simpa using hw, by simpa using hready.rdata s.params⟩,
      State.advance_totals hp hk rfl (by simp [htrace]) (by simp [htrace])⟩
  · obtain ⟨d, _, htrace⟩ := s.bus.xrdwr_sample s.params (nextValue op s)
    exact ⟨⟨by simpa using hw, by simpa using hready.xrdwr s.params _⟩,
      State.advance_totals hp hk rfl (by simp [htrace]) (by simp [htrace])⟩

/-- A transition after the entry keeps the sums of what is sent and what is left. -/
theorem transition_totals {op : Latch} {s t : State} (hs : Stands op s) (hprompt : Prompt s)
    (h : transition s = .next t) : Prompt t ∧ SameTotals op s t := by
  obtain ⟨hw, hready⟩ := hprompt
  cases hs with
  | ended hp _ =>
    rw [transition_idle hp] at h
    cases h
    exact ⟨⟨hw, hready⟩, rfl, rfl⟩
  | restoring hl hp _ _ =>
    rw [transition_restoring hp hl] at h
    cases hm : op.mode with
    | ss =>
      rw [restoringPhase_plain hm] at h
      cases h
      refine ⟨⟨rfl, hready.sendFrame _ _⟩, ?_⟩
      simp [SameTotals, framesLeft, pollsLeft, hp, hm, Bus.wreg1_trace]
    | cc =>
      rw [restoringPhase_pipelined hm] at h
      cases h
      refine ⟨⟨rfl, hready⟩, ?_⟩
      simp [SameTotals, framesLeft, pollsLeft, hp, hm]
  | atChannel hl hp hk _ =>
    rcases hp with hp | hp | hp | hp
    · rw [transition_waking hp hl] at h
      cases hwake : s.params.wake with
      | false =>
        rw [wakingPhase_without_wake hwake] at h
        cases h
        refine ⟨⟨hw, hready⟩, ?_⟩
        simp [SameTotals, framesLeft, pollsLeft, hp, wakeCount, hwake]
      | true =>
        rw [wakingPhase_starts hwake hw] at h
        have hstarted : (s.bus.startSync s.params).AlwaysReady := hready.sendFrame _ _
        rw [waitReady_of_alwaysReady h hstarted]
        refine ⟨⟨rfl, hstarted.poll.2⟩, ?_⟩
        simp only [SameTotals, framesLeft, pollsLeft, hp, wakeCount, hwake, if_true, Bus.poll_trace,
          Bus.startSync_trace, frameCount_poll, pollCount_poll, frameCount_frame, pollCount_frame]
        omega
    · rw [transition_configuring hp hl] at h
      cases h
      refine ⟨⟨by simpa using hw, configure_alwaysReady op hready⟩, ?_⟩
      simp only [SameTotals, framesLeft, pollsLeft, hp, configure_frameCount, configure_pollCount,
        configure_k, Nat.add_assoc, and_self]
    · rw [transition_converting hp hl] at h
      rw [waitReady_of_alwaysReady h hready]
      refine ⟨⟨rfl, hready.poll.2⟩, ?_⟩
      simp only [SameTotals, framesLeft, pollsLeft, hp, Bus.poll_trace, frameCount_poll, pollCount_poll,
        true_and]
      omega
    · rw [transition_reading hp hl] at h
      exact readingPhase_totals h hp hk ⟨hw, hready⟩

theorem Reaches.totals {op : Latch} {s t : State} (h : Reaches s t) (hs : Stands op s)
    (hprompt : Prompt s) : SameTotals op s t := by
  refine (h.keeps (P := fun t => Stands op t ∧ Prompt t ∧ SameTotals op s t) ?_
    ⟨hs, hprompt, rfl, rfl⟩).2.2
  rintro t u ⟨ht, hprompt, hframes, hpolls⟩ htu
  obtain ⟨hprompt', hframes', hpolls'⟩ := transition_totals ht hprompt htu
  obtain ⟨hu, _⟩ := transition_stands ht htu
  exact ⟨hu, hprompt', hframes'.trans hframes, hpolls'.trans hpolls⟩

/-- Before its first channel a sequence has all the frames of its channels left. -/
theorem framesLeft_entered (op : Latch) (s : State) :
    framesLeft op (s.entered op) = wakeCount s.params + channelFrames op := by
  cases hm : op.mode <;>
    simp [framesLeft, State.entered, configuringFrames, framesFromWait, channelFrames, hm] <;> omega

/-- Settles O27: after the read-back the wake and the channels are left, at the end nothing is, and no
transition changes the sum of what is sent and what is left. -/
theorem completedSequenceFrameCounts : Obligations.CompletedSequenceFrameCounts := by
  unfold Obligations.CompletedSequenceFrameCounts
  intro i op s t bytes hq henv hexec hp he w
  have hready : s.bus.AlwaysReady := ⟨bytes, henv⟩
  rw [exec_of_sequence hq] at hexec
  cases hchecks : entryError s op with
  | some e =>
    rw [readAll_raises hchecks] at hexec
    obtain rfl := Outcome.next.inj hexec
    cases e <;> simp [Error.code] at he
  | none =>
    obtain ⟨hframes, hpolls⟩ := (readAll_reaches hchecks hexec).totals (stands_entered op s)
      ⟨rfl, hready.rreg s.params 0⟩
    have hopened : frameCount (s.entered op).bus.trace = frameCount s.bus.trace + 1 ∧
        pollCount (s.entered op).bus.trace = pollCount s.bus.trace := by
      simp [State.entered, Bus.rreg_trace]
    have hended : framesLeft op t = 0 ∧ pollsLeft op t = 0 := by simp [framesLeft, pollsLeft, hp]
    have hbegun : pollsLeft op (s.entered op) = wakeCount s.params + op.top.channels := rfl
    rw [framesLeft_entered, hopened.1, hended.1] at hframes
    rw [hbegun, hopened.2, hended.2] at hpolls
    change _ = _ + 1 + wakeCount s.params + _ ∧ _ = _ + wakeCount s.params + _
    omega

end Sys2Proof.Machine

namespace Sys2Proof.Machine

/-! ## Initialisation and reconfiguration (44_lifecycle.md) -/

/-- `WARN` is set unless both optional capabilities are bound (44_lifecycle.md R200). -/
theorem warnFlag_eq_not_and (p : Params) : warnFlag p = !(p.capXfer && p.capDrdy) :=
  (Bool.not_and p.capXfer p.capDrdy).symm

/-- `INIT` answers the same whether or not the handle was initialised: it has no host wrapper. -/
theorem exec_init (c : Configuration) (s : State) : exec (.init c) s =
    .next { s with
      bus := (s.bus.resetDevice s.params).wreg4 s.params (enc c)
      warn := !(s.params.capXfer && s.params.capDrdy), inited := true, err := 0 } := by
  rw [← warnFlag_eq_not_and]
  rfl

/-- Settles O20: `INIT` is `Reset()` and then `WReg4(ENC(c))`, without the host wrapper. -/
theorem initResetsConfiguresAndMarks : Obligations.InitResetsConfiguresAndMarks := by
  unfold Obligations.InitResetsConfiguresAndMarks
  refine ⟨fun _ => rfl, fun c s => ⟨_, exec_init c s, ?_, ?_⟩⟩
  · rw [Bus.wreg4_trace, Bus.resetDevice_trace]
  · rw [Bus.wreg4_draws, Bus.resetDevice_draws]

/-- Settles O21: `CONFIG` is `WReg4(ENC(c))` under the host wrapper. -/
theorem configRewritesAllFourRegisters : Obligations.ConfigRewritesAllFourRegisters := by
  unfold Obligations.ConfigRewritesAllFourRegisters
  exact ⟨fun _ => rfl, fun c s =>
    exec_sending_procedure (fun b p => b.wreg4 p (enc c)) (fun _ => rfl) s
      (Bus.wreg4_trace _ _ _) (Bus.wreg4_draws _ _ _)⟩

end Sys2Proof.Machine

namespace Sys2Proof.Machine

open Sys2Proof.Safety
open Host (Outcome)

/-! ## The entry checks and the error codes (43_sequencer.md R161; 60_exceptions.md R210) -/

theorem entryError_uninitialised {s : State} {op : Latch} (hi : s.inited = false) :
    entryError s op = some .handleNotInitialized := by
  simp [entryError, hi]

theorem inited_of_entryError_none {s : State} {op : Latch} (h : entryError s op = none) :
    s.inited = true := by
  cases hi : s.inited with
  | true => rfl
  | false =>
    rw [entryError_uninitialised hi] at h
    cases h

theorem Error.code_toNat_le (e : Error) : e.code.toNat ≤ 4 := by
  cases e <;> decide

/-- The transition out of the entry of a sequence whose checks pass. -/
theorem transition_accept {s : State} {op : Latch} (he : entryError s op = none) :
    transition (s.accept op) = .next (s.entered op) := by
  have he' : entryError (s.accept op) op = none := he
  rw [transition_entry (op := op) rfl rfl, entryPhase, he']
  rfl

/-- Settles O30: the operations under the host wrapper fail its test of `INITED`, the sequences the
first of their entry checks. -/
theorem uninitializedHandleFailsFast : Obligations.UninitializedHandleFailsFast := by
  unfold Obligations.UninitializedHandleFailsFast
  intro i s hspace hinit hidle hs
  cases hq : sequenceOf i with
  | some op =>
    rw [exec_of_sequence hq, readAll_refused hidle (entryError_uninitialised hs)]
    rfl
  | none =>
    obtain ⟨proc, _, hexec⟩ := exec_hostOp hspace hinit hq
    exact exec_uninitialised hs hidle hexec

end Sys2Proof.Machine

namespace Sys2Proof.Machine

open Sys2Proof.Safety
open Host (Outcome)

/-! ## How the phases that have two forms end -/

/-- With `P.WAKE` the Waking step is a turn of its wait, the first one after a start/sync. -/
theorem wakingPhase_turn {s : State} (hw : s.params.wake = true) :
    ∃ first b, wakingPhase s = waitReady first .configuring { s with bus := b } := by
  cases hwt : s.waiting with
  | true => exact ⟨false, s.bus, wakingPhase_waits hw hwt⟩
  | false => exact ⟨true, _, wakingPhase_starts hw hwt⟩

/-- In either mode the restore ends the sequence (43_sequencer.md R172, R173). -/
theorem restoringPhase_blockIdle {op : Latch} {s t : State} (h : restoringPhase op s = .next t) :
    BlockIdle t := by
  cases hm : op.mode with
  | ss =>
    rw [restoringPhase_plain hm] at h
    cases h
    exact ⟨rfl, rfl, rfl, rfl⟩
  | cc =>
    rw [restoringPhase_pipelined hm] at h
    cases h
    exact ⟨rfl, rfl, rfl, rfl⟩

/-! ## A step has fuel for all the transitions of a sequence (43_sequencer.md R179) -/

/-- The transitions a sequence still makes when no wait holds it up: three for each channel, and those
of the phases before and after the channels. -/
def transitionsLeft (op : Latch) (s : State) : Nat :=
  match s.phase with
  | .idle => 0
  | .entry => 3 * op.top.channels + 3
  | .waking => 3 * (op.top.channels - s.k.val) + 2
  | .configuring => 3 * (op.top.channels - s.k.val) + 1
  | .converting => 3 * (op.top.channels - s.k.val)
  | .reading => 3 * (op.top.channels - s.k.val) - 1
  | .restoring => 1

theorem transitionsLeft_pos {op : Latch} {s : State} (hs : Stands op s) (hp : s.phase ≠ .idle) :
    0 < transitionsLeft op s := by
  rcases hs with ⟨_, h | h | h | h, hk, _⟩ | ⟨_, h, _, _⟩ | ⟨h, _⟩
  · simp [transitionsLeft, h]
  · simp [transitionsLeft, h]
  · simp only [transitionsLeft, h]; omega
  · simp only [transitionsLeft, h]; omega
  · simp [transitionsLeft, h]
  · exact absurd h hp

/-- After a read the next channel, or the restore, has fewer transitions left. -/
theorem State.advance_transitionsLeft {op : Latch} {s r : State} (hp : s.phase = .reading)
    (hk : s.k.val < op.top.channels) (hrk : r.k = s.k) :
    transitionsLeft op (r.advance op) < transitionsLeft op s := by
  by_cases hmore : r.k.val + 1 < op.top.channels
  · rw [State.advance_of_more r op hmore]
    simp only [transitionsLeft, hp, val_add_one_of_more hmore]
    rw [hrk] at hmore ⊢
    omega
  · rw [State.advance_of_last r op hmore]
    simp only [transitionsLeft, hp]
    omega

/-- A turn of a wait ends the sequence, waits on, or goes to the next phase. -/
theorem waitReady_ends_or_goes_on {first : Bool} {after : Phase} {s t : State}
    (h : waitReady first after s = .next t) :
    t.phase = .idle ∨ t.waiting = true ∨ (t.phase = after ∧ t.k = s.k) := by
  obtain ⟨_, ⟨_, rfl⟩ | ⟨_, rfl, _⟩ | ⟨_, rfl, _⟩⟩ := waitReady_cases h
  · exact .inr (.inr ⟨rfl, rfl⟩)
  · exact .inr (.inl rfl)
  · exact .inl rfl

/-- A transition ends the step or comes nearer to the end of the sequence. -/
theorem transition_transitionsLeft {op : Latch} {s t : State} (hs : Stands op s)
    (h : transition s = .next t) :
    t.phase = .idle ∨ t.waiting = true ∨ transitionsLeft op t < transitionsLeft op s := by
  cases hs with
  | ended hp _ =>
    rw [transition_idle hp] at h
    cases h
    exact .inl hp
  | restoring hl hp _ _ =>
    rw [transition_restoring hp hl] at h
    obtain ⟨hidle, _⟩ := restoringPhase_blockIdle h
    exact .inl hidle
  | atChannel hl hp hk _ =>
    rcases hp with hp | hp | hp | hp
    · rw [transition_waking hp hl] at h
      cases hw : s.params.wake with
      | false =>
        rw [wakingPhase_without_wake hw] at h
        cases h
        simp [transitionsLeft, hp]
      | true =>
        obtain ⟨first, b, hturn⟩ := wakingPhase_turn hw
        rw [hturn] at h
        refine (waitReady_ends_or_goes_on h).imp_right (Or.imp_right ?_)
        rintro ⟨hp', hk'⟩
        simp [transitionsLeft, hp, hp', hk']
    · rw [transition_configuring hp hl] at h
      cases h
      simp [transitionsLeft, hp]
    · rw [transition_converting hp hl] at h
      refine (waitReady_ends_or_goes_on h).imp_right (Or.imp_right ?_)
      rintro ⟨hp', hk'⟩
      simp only [transitionsLeft, hp, hp', hk']
      omega
    · rw [transition_reading hp hl] at h
      obtain ⟨_, rfl⟩ | ⟨_, _, rfl⟩ := readingPhase_cases h
      · exact .inr (.inr (State.advance_transitionsLeft hp hk rfl))
      · exact .inr (.inr (State.advance_transitionsLeft hp hk rfl))

/-- A run with fuel for the transitions left stops where a step may stop. -/
theorem runTransitions_ends {fuel : Nat} {op : Latch} {s t : State} (hs : Stands op s)
    (hfuel : transitionsLeft op s ≤ fuel) (h : runTransitions fuel s = .next t) :
    t.phase = .idle ∨ t.waiting = true := by
  induction fuel generalizing s with
  | zero =>
    obtain rfl : s = t := Outcome.next.inj h
    refine .inl (by_contra fun hp => ?_)
    have := transitionsLeft_pos hs hp
    omega
  | succ fuel ih =>
    cases hu : transition s with
    | fault f => simp [runTransitions, hu] at h
    | refused r => simp [runTransitions, hu] at h
    | next u =>
      simp only [runTransitions, hu] at h
      split at h
      next hends =>
        obtain rfl : u = t := Outcome.next.inj h
        simpa using hends
      next hgoes =>
        have hbusy : u.phase ≠ .idle ∧ u.waiting = false := by simpa using hgoes
        have hless := transition_transitionsLeft hs hu
        simp only [hbusy, Bool.false_eq_true, false_or] at hless
        exact ih (transition_stands hs hu).1 (by omega) h

/-- Past its entry no sequence has more than fourteen transitions left. -/
theorem transitionsLeft_le {op : Latch} {s : State} (hs : Stands op s) :
    transitionsLeft op s ≤ 14 := by
  have hn := op.top.channels_le
  have hp := hs.phase_ne_entry
  cases hph : s.phase with
  | entry => exact absurd hph hp
  | idle | waking | configuring | converting | reading | restoring =>
    simp only [transitionsLeft, hph]
    omega

/-! ## What a running sequence keeps beside its place -/

/-- A wait has polled, and not as often as the limit allows (10_state.md R18; 43_sequencer.md R183). -/
def PollsCounted (s : State) : Prop :=
  1 ≤ s.pcnt ∧ ∀ limit, s.params.pollLimit = some limit → s.pcnt < limit

/-- Between two transitions after the entry, phase by phase: which value `R0S` holds (10_state.md R17),
and whether a wait may be open (log 10). -/
inductive Poised (op : Latch) (s : State) : Prop where
  | waking (phase : s.phase = .waking) (firstChannel : s.k = 0) (resident : s.r0s = s.orig)
      (wait : s.waiting = true → s.params.wake = true ∧ PollsCounted s)
  | configuring (phase : s.phase = .configuring) (noWait : s.waiting = false)
      (resident : op.mode = .cc → 1 ≤ s.k.val → s.r0s = s.channelValue op s.k)
  | converting (phase : s.phase = .converting) (resident : s.r0s = s.channelValue op s.k)
      (wait : s.waiting = true → PollsCounted s)
  | reading (phase : s.phase = .reading) (noWait : s.waiting = false)
  | restoring (phase : s.phase = .restoring) (noWait : s.waiting = false)
  | idle (parked : BlockIdle s)

theorem poised_entered (op : Latch) (s : State) : Poised op (s.entered op) :=
  .waking rfl rfl rfl nofun

theorem poised_of_sequenceInv {op : Latch} {s : State} (h : SequenceInv s op) : Poised op s := by
  rcases h.position with ⟨hp, hwake, hk, hr⟩ | ⟨hp, hr⟩
  · exact .waking hp hk hr fun _ => ⟨hwake, h.counted, h.belowLimit⟩
  · exact .converting hp hr fun _ => ⟨h.counted, h.belowLimit⟩

/-- A turn of a wait leaves the sequence poised when its two answers do: a timeout parks the block. -/
theorem waitReady_poised {op : Latch} {first : Bool} {after : Phase} {s t : State}
    (h : waitReady first after s = .next t)
    (hready : ∀ b c, Poised op { s with bus := b, pcnt := c, waiting := false, phase := after })
    (hwaits : ∀ b c, PollsCounted { s with pcnt := c } →
      Poised op { s with bus := b, pcnt := c, waiting := true }) : Poised op t := by
  obtain ⟨_, ⟨_, rfl⟩ | ⟨_, rfl, hl⟩ | ⟨_, rfl, _⟩⟩ := waitReady_cases h
  · exact hready _ _
  · exact hwaits _ _ ⟨Nat.le_add_left _ _, hl⟩
  · exact .idle ⟨rfl, rfl, rfl, rfl⟩

theorem configure_channelValue (op : Latch) (s : State) (k : Fin 4) :
    (configure op s).channelValue op k = s.channelValue op k := by
  simp [State.channelValue]

/-- After its Configuring step the channel's value is resident: the step issues it, or the burst before
has written it (43_sequencer.md R168, R171). -/
theorem configure_channel_resident {op : Latch} {s : State}
    (h : op.mode = .cc → 1 ≤ s.k.val → s.r0s = s.channelValue op s.k) :
    (configure op s).r0s = s.channelValue op s.k := by
  obtain ⟨hm, hk⟩ | ⟨hissues, _⟩ := configure_conditions op s
  · rw [configure_pipelined hm hk, h hm hk]
  · exact (configure_issues hissues).1

/-- After a read the next channel is configured, in a continuous sequence with the value the burst wrote,
or the sequence restores. -/
theorem State.advance_poised {op : Latch} {s : State} (hw : s.waiting = false)
    (hr : s.k.val + 1 < op.top.channels → op.mode = .cc → s.r0s = s.channelValue op (s.k + 1)) :
    Poised op (s.advance op) := by
  by_cases hmore : s.k.val + 1 < op.top.channels
  · rw [State.advance_of_more s op hmore]
    exact .configuring rfl hw fun hm _ => hr hmore hm
  · rw [State.advance_of_last s op hmore]
    exact .restoring rfl hw

theorem readingPhase_poised {op : Latch} {s t : State} (h : readingPhase op s = .next t)
    (hw : s.waiting = false) : Poised op t := by
  obtain ⟨hm, rfl⟩ | ⟨_, _, rfl⟩ := readingPhase_cases h
  · exact State.advance_poised hw (by simp [hm])
  · exact State.advance_poised hw fun hmore _ => if_pos hmore

theorem transition_poised {op : Latch} {s t : State} (hl : s.phase ≠ .idle → s.latch = some op)
    (hs : Poised op s) (h : transition s = .next t) : Poised op t := by
  cases hs with
  | waking hp hk hr hwait =>
    rw [transition_waking hp (hl (by simp [hp]))] at h
    have hfirst : op.mode = .cc → 1 ≤ s.k.val → s.r0s = s.channelValue op s.k := by simp [hk]
    cases hw : s.params.wake with
    | false =>
      rw [wakingPhase_without_wake hw] at h
      cases h
      exact .configuring rfl (by simpa [hw] using hwait) hfirst
    | true =>
      obtain ⟨first, b, hturn⟩ := wakingPhase_turn hw
      rw [hturn] at h
      exact waitReady_poised h (fun _ _ => .configuring rfl rfl hfirst)
        fun _ _ hc => .waking hp hk hr fun _ => ⟨hw, hc⟩
  | configuring hp hw hr =>
    rw [transition_configuring hp (hl (by simp [hp]))] at h
    cases h
    refine .converting rfl ?_ (by simp [hw])
    show (configure op s).r0s = (configure op s).channelValue op (configure op s).k
    rw [configure_channelValue, configure_k, configure_channel_resident hr]
  | converting hp hr _ =>
    rw [transition_converting hp (hl (by simp [hp]))] at h
    exact waitReady_poised h (fun _ _ => .reading rfl rfl) fun _ _ hc => .converting hp hr fun _ => hc
  | reading hp hw =>
    rw [transition_reading hp (hl (by simp [hp]))] at h
    exact readingPhase_poised h hw
  | restoring hp _ =>
    rw [transition_restoring hp (hl (by simp [hp]))] at h
    exact .idle (restoringPhase_blockIdle h)
  | idle hidle =>
    obtain ⟨hp, hparked⟩ := hidle
    rw [transition_idle hp] at h
    cases h
    exact .idle ⟨hp, hparked⟩

/-! ## The last sample (10_state.md R11, R13) -/

/-- `SR` is the channel register read last, where one has been read. -/
def LastSample (s : State) : Prop := ∀ j : Fin 4, s.nvalid.val = j.val + 1 → s.sr = s.ch.read j

theorem ReadsOn.lastSample {s t : State} (h : ReadsOn s t) (hs : LastSample s) : LastSample t := by
  obtain ⟨reads, hreads⟩ := h
  by_cases hne : reads = []
  · subst hne
    intro j hj
    have hcount : t.nvalid.val = s.nvalid.val := hreads.counted
    rw [hreads.kept j (.inl (by omega)), show t.sr = s.sr from hreads.last]
    exact hs j (by omega)
  · obtain ⟨i, hi, hsr⟩ := sr_eq_last_channel hreads hne
    intro j hj
    obtain rfl : i = j := Fin.ext (by omega)
    exact hsr

/-! ## The invariant between two transitions -/

/-- What every transition after the entry keeps; between two steps it is the invariant. -/
structure Underway (op : Latch) (s : State) : Prop where
  stands : Stands op s
  poised : Poised op s
  initialised : s.inited = true
  bound : capabilityMissing s.params op.mode = false
  lastSample : LastSample s
  code : s.err.toNat ≤ 4

theorem Stands.latched {op : Latch} {s : State} (h : Stands op s) (hp : s.phase ≠ .idle) :
    s.latch = some op := by
  cases h with
  | atChannel hl => exact hl
  | restoring hl => exact hl
  | ended hp' => exact absurd hp' hp

theorem transition_underway {op : Latch} {s t : State} (hs : Underway op s)
    (h : transition s = .next t) : Underway op t := by
  obtain ⟨hstands, hreads⟩ := transition_stands hs.stands h
  obtain ⟨_, hin, _, hpar, _⟩ := transition_frame h
  exact {
    stands := hstands
    poised := transition_poised hs.stands.latched hs.poised h
    initialised := hin.trans hs.initialised
    bound := by rw [hpar]; exact hs.bound
    lastSample := hreads.lastSample hs.lastSample
    code := by
      rcases transition_err hs.stands.phase_ne_entry h with he | he | he
      · rw [he]; exact hs.code
      · simp [he]
      · simp [he] }

theorem Reaches.underway {op : Latch} {s t : State} (h : Reaches s t) (hs : Underway op s) :
    Underway op t :=
  h.keeps (fun _ _ => transition_underway) hs

theorem underway_entered {op : Latch} {s : State} (he : entryError s op = none)
    (hcode : s.err.toNat ≤ 4) : Underway op (s.entered op) where
  stands := stands_entered op s
  poised := poised_entered op s
  initialised := inited_of_entryError_none he
  bound := capabilityMissing_of_entryError_none he
  lastSample := fun _ h => absurd h (Nat.succ_ne_zero _).symm
  code := hcode

theorem underway_of_sequenceInv {op : Latch} {s : State} (h : SequenceInv s op)
    (hcode : s.err.toNat ≤ 4) : Underway op s where
  stands := stands_of_sequenceInv h
  poised := poised_of_sequenceInv h
  initialised := h.initialised
  bound := capabilityMissing_eq_false.mpr ⟨h.pollBound, h.xferBound⟩
  lastSample := fun j hj => h.lastSample j (h.valid ▸ hj)
  code := hcode

/-- A channel is being read while the sequence neither restores nor has ended. -/
theorem Stands.channel {op : Latch} {s : State} (h : Stands op s) (hp : s.phase ≠ .restoring)
    (hp' : s.phase ≠ .idle) : s.k.val < op.top.channels ∧ s.nvalid.val = s.k.val := by
  cases h with
  | atChannel _ _ hk hn => exact ⟨hk, hn⟩
  | restoring _ h => exact absurd h hp
  | ended h => exact absurd h hp'

/-- An open wait is that of the wake or of a channel, and its polls are counted. -/
theorem Poised.position_of_waiting {op : Latch} {s : State} (h : Poised op s)
    (hw : s.waiting = true) : PollsCounted s ∧
      ((s.phase = .waking ∧ s.params.wake = true ∧ s.k = 0 ∧ s.r0s = s.orig) ∨
        (s.phase = .converting ∧ s.r0s = s.channelValue op s.k)) := by
  cases h with
  | waking hp hk hr hwait =>
    obtain ⟨hwake, hcounted⟩ := hwait hw
    exact ⟨hcounted, .inl ⟨hp, hwake, hk, hr⟩⟩
  | converting hp hr hwait => exact ⟨hwait hw, .inr ⟨hp, hr⟩⟩
  | configuring _ hw' | reading _ hw' | restoring _ hw' => simp [hw] at hw'
  | idle hidle =>
    obtain ⟨_, _, _, hw'⟩ := hidle
    simp [hw] at hw'

/-- A sequence whose wait is open meets the sequence's invariant. -/
theorem Underway.sequenceInv {op : Latch} {s : State} (h : Underway op s) (hw : s.waiting = true) :
    SequenceInv s op := by
  obtain ⟨hpoll, hxfer⟩ := capabilityMissing_eq_false.mp h.bound
  obtain ⟨⟨hcounted, hlimit⟩, hposition⟩ := h.poised.position_of_waiting hw
  obtain ⟨hrest, hbusy⟩ : s.phase ≠ .restoring ∧ s.phase ≠ .idle := by
    obtain ⟨hp, _⟩ | ⟨hp, _⟩ := hposition <;> simp [hp]
  obtain ⟨hrange, hvalid⟩ := h.stands.channel hrest hbusy
  exact {
    latched := h.stands.latched hbusy
    initialised := h.initialised
    waits := hw
    pollBound := hpoll
    xferBound := hxfer
    counted := hcounted
    belowLimit := hlimit
    valid := hvalid
    inRange := hrange
    lastSample := fun j hj => h.lastSample j (hvalid.trans hj)
    position := hposition }

theorem Poised.blockIdle {op : Latch} {s : State} (h : Poised op s) (hp : s.phase = .idle) :
    BlockIdle s := by
  cases h with
  | idle hidle => exact hidle
  | waking hp' | configuring hp' | converting hp' | reading hp' | restoring hp' => simp [hp] at hp'

/-- Where a step may stop the invariant holds. -/
theorem Underway.inv {op : Latch} {s : State} (h : Underway op s)
    (hends : s.phase = .idle ∨ s.waiting = true) : Inv s :=
  ⟨h.code, hends.imp h.poised.blockIdle fun hw => ⟨op, h.sequenceInv hw⟩⟩

/-- A run with fuel for fourteen transitions leaves a sequence where the invariant holds. -/
theorem runTransitions_inv {fuel : Nat} {op : Latch} {s t : State} (hs : Underway op s)
    (hfuel : 14 ≤ fuel) (h : runTransitions fuel s = .next t) : Inv t :=
  ((reaches_of_runTransitions h).underway hs).inv
    (runTransitions_ends hs.stands ((transitionsLeft_le hs.stands).trans hfuel) h)

theorem blockIdle_of_inv {s : State} (h : Inv s) (hp : s.phase = .idle) : BlockIdle s := by
  rcases h.position with hidle | ⟨op, hseq⟩
  · exact hidle
  · rcases sequenceInv_phase hseq with hp' | hp' <;> simp [hp] at hp'

theorem sequenceInv_of_inv {s : State} (h : Inv s) (hp : s.phase ≠ .idle) :
    ∃ op, SequenceInv s op :=
  h.position.resolve_left fun ⟨hidle, _⟩ => hp hidle

/-! ## Every operation and every step -/

/-- A sequence that is refused leaves the block idle; one that passes its checks is under way. -/
theorem readAll_inv {op : Latch} {s t : State} (hidle : BlockIdle s) (hcode : s.err.toNat ≤ 4)
    (h : readAll op s = .next t) : Inv t := by
  cases hchecks : entryError s op with
  | some e =>
    rw [readAll_refused hidle hchecks] at h
    cases h
    exact ⟨e.code_toNat_le, .inl hidle⟩
  | none =>
    rw [readAll, resume, maxTransitions,
      runTransitions_more (transition_accept hchecks) (by simp [State.entered]) rfl] at h
    exact runTransitions_inv (underway_entered hchecks hcode) le_rfl h

/-- A sequence waits or has ended; any other operation leaves the block idle. -/
theorem exec_inv {i : Instr} {s t : State} (hidle : BlockIdle s) (hcode : s.err.toNat ≤ 4)
    (h : exec i s = .next t) : Inv t := by
  cases hq : sequenceOf i with
  | some op =>
    rw [exec_of_sequence hq] at h
    exact readAll_inv hidle hcode h
  | none =>
    cases hsp : i.space with
    | wire =>
      obtain ⟨b, hb⟩ := exec_wire hsp s
      rw [hb] at h
      cases h
      exact ⟨hcode, .inl hidle⟩
    | host =>
      cases hi : isInit i with
      | true =>
        obtain ⟨c, rfl⟩ := exists_init_of_isInit hi
        rw [exec_init] at h
        cases h
        exact ⟨Nat.zero_le 4, .inl hidle⟩
      | false =>
        obtain ⟨proc, hproc, hexec⟩ := exec_hostOp hsp hi hq
        obtain ⟨b, r, v, hframe⟩ := hproc.frame s
        rw [hexec] at h
        rcases hostOp_cases h with rfl | rfl
        · rw [hframe]
          exact ⟨Nat.zero_le 4, .inl hidle⟩
        · exact ⟨Error.code_toNat_le _, .inl ⟨rfl, rfl, rfl, rfl⟩⟩

/-- Settles O41: between two transitions a sequence keeps a stronger invariant, `Underway`; a step has
fuel to come to where it is the one stated. The operations that are no sequence leave the block idle. -/
theorem everyStepKeepsTheInvariant : Obligations.EveryStepKeepsTheInvariant := by
  unfold Obligations.EveryStepKeepsTheInvariant
  intro s t hinv h
  rcases step_cases h with ⟨_, _, rfl⟩ | ⟨r, rest, e, hp, _, _, rfl⟩ | ⟨r, rest, i, hp, _, _, hexec⟩ |
    ⟨hp, hrun⟩
  · exact hinv
  · have hidle := blockIdle_of_inv hinv hp
    exact ⟨hinv.code, .inl hidle⟩
  · have hidle := blockIdle_of_inv hinv hp
    exact exec_inv (s := { s with pending := rest }) hidle hinv.code hexec
  · obtain ⟨op, hseq⟩ := sequenceInv_of_inv hinv hp
    exact runTransitions_inv (underway_of_sequenceInv hseq hinv.code) (by decide) hrun

end Sys2Proof.Machine

namespace Sys2Proof.Machine

open Sys2Proof.Safety
open Host (Outcome)

/-! ## A device that is never ready (60_exceptions.md R213, R216) -/

/-- The bus after `n` polls answered "converting" by a device that is never ready. -/
def Bus.converting (b : Bus) (n : Nat) : Bus :=
  { b with trace := b.trace ++ List.replicate n (.poll true) }

theorem Bus.poll_never_ready {b : Bus} {bytes : List Byte}
    (he : b.env = .script bytes [] (some true)) : b.poll = (true, b.converting 1) := by
  rw [Bus.poll_later b true bytes he, ← he]
  rfl

theorem Bus.converting_succ (b : Bus) (n : Nat) :
    (b.converting 1).converting n = b.converting (n + 1) := by
  simp [Bus.converting, List.replicate_succ]

theorem Bus.converting_pollCount (b : Bus) (n : Nat) :
    pollCount (b.converting n).trace = pollCount b.trace + n := by
  simp [Bus.converting, pollCount, List.countP_replicate]

/-- Below the limit a "converting" answer takes a waiting sequence to the next turn of its wait. -/
theorem step_converting {s : State} {op : Latch} (hs : SequenceInv s op) (hb : s.bus.poll.1 = true)
    (hl : ∀ limit, s.params.pollLimit = some limit → s.pcnt + 1 < limit) :
    step s = .next { s with bus := s.bus.poll.2, pcnt := s.pcnt + 1 } := by
  obtain ⟨after, hturn⟩ := transition_of_sequenceInv hs
  rw [waitReady_converting false after hs.pollBound hb hl] at hturn
  rw [step_of_sequenceInv hs, maxTransitions, runTransitions_waits hturn rfl, hs.waits]
  rfl

/-- The sequence still waits then. -/
theorem sequenceInv_converting {s : State} {op : Latch} (hs : SequenceInv s op) (b : Bus)
    (hl : ∀ limit, s.params.pollLimit = some limit → s.pcnt + 1 < limit) :
    SequenceInv { s with bus := b, pcnt := s.pcnt + 1 } op :=
  { hs with counted := Nat.le_add_left _ _, belowLimit := hl }

theorem runSteps_of_step {s t : State} (h : step s = .next t) (n : Nat) :
    runSteps (n + 1) s = runSteps n t := by
  simp only [runSteps, h]

/-- Settles O37: without a limit each poll answered "converting" leaves the sequence waiting, one poll
to a step (log 9). -/
theorem unboundedWaitPollsForever : Obligations.UnboundedWaitPollsForever := by
  unfold Obligations.UnboundedWaitPollsForever
  intro s op bytes n hs hunlimited he
  induction n generalizing s with
  | zero => simp [runSteps]
  | succ n ih =>
    have hl : ∀ limit, s.params.pollLimit = some limit → s.pcnt + 1 < limit := by simp [hunlimited]
    have hpoll := Bus.poll_never_ready he
    have hstep : step s = .next { s with bus := s.bus.converting 1, pcnt := s.pcnt + 1 } := by
      rw [step_converting hs (by rw [hpoll]) hl, hpoll]
    rw [runSteps_of_step hstep, ih _ (sequenceInv_converting hs (s.bus.converting 1) hl)
      hunlimited he, Nat.add_right_comm s.pcnt 1 n]
    exact congrArg (fun b => Outcome.next { s with pcnt := s.pcnt + n + 1, bus := b })
      (s.bus.converting_succ n)

/-- The wait of `s` after `n` polls answered "converting", the last of which reached the limit
(43_sequencer.md R183). -/
def State.timedOut (s : State) (limit n : Nat) : State :=
  ({ s with pcnt := limit, bus := s.bus.converting n } : State).raise .conversionTimeout

/-- The first of those polls may be told apart. -/
theorem State.timedOut_succ (s : State) (limit n c : Nat) :
    ({ s with pcnt := c, waiting := true, bus := s.bus.converting 1 } : State).timedOut limit n =
      s.timedOut limit (n + 1) := by
  unfold State.timedOut
  rw [← Bus.converting_succ s.bus n]
  rfl

/-- A wait that is never answered "ready" goes on to its limit: from `s`, whose transition is a turn of
the wait in `s'`, there is a step for each poll but the first. -/
theorem goes_timeout (after : Phase) (bytes : List Byte) (limit n : Nat) {first : Bool} {s s' : State}
    (hp : s'.phase ≠ .idle) (hd : s'.params.capDrdy = true) (hl : s'.params.pollLimit = some limit)
    (turn : transition s = waitReady first after s')
    (next : ∀ b c, transition { s' with bus := b, pcnt := c, waiting := true } =
      waitReady false after { s' with bus := b, pcnt := c, waiting := true })
    (he : s'.bus.env = .script bytes [] (some true))
    (hn : (if first then 0 else s'.pcnt) + (n + 1) = limit) :
    GoesTo 1 n s (s'.timedOut limit (n + 1)) := by
  have hb := Bus.poll_never_ready he
  induction n generalizing first s s' with
  | zero =>
    refine goes_idle ?_ rfl
    rw [turn, waitReady_timeout first after limit hd (by rw [hb]) hl hn.ge, hb, ← hn]
    rfl
  | succ n ih =>
    have hbelow : ∀ limit', s'.params.pollLimit = some limit' →
        (if first then 0 else s'.pcnt) + 1 < limit' := by
      intro limit' hl'
      obtain rfl : limit = limit' := Option.some.inj (hl.symm.trans hl')
      omega
    have hturn := turn.trans (waitReady_converting first after hd (by rw [hb]) hbelow)
    rw [hb] at hturn
    refine goes_waits (F := 1) hturn hp rfl ?_ (by decide)
    rw [← State.timedOut_succ]
    exact ih (first := false) hp hd hl (next _ _) next he
      ((Nat.add_right_comm _ 1 (n + 1)).trans hn) (Bus.poll_never_ready he)

/-! ### From the acceptance to the first wait -/

theorem Bus.rreg_of_script {b : Bus} {bytes : List Byte} {polls : List Bool} {later : Option Bool}
    (p : Params) (a : RegAddr) (h : b.env = .script bytes polls later) :
    (b.rreg p a).2.env = .script bytes.tail polls later := by
  have hsent : (((b.sel true).dly p.tCs).tx (readCommand a)).env = .script bytes polls later := by
    simp [h]
  obtain ⟨hread, _⟩ := Bus.rx_of_script hsent
  show (Bus.rx _).2.env.select false = _
  rw [hread]
  rfl

theorem configure_env_script {op : Latch} {s : State} {bytes : List Byte} {polls : List Bool}
    {later : Option Bool} (h : s.bus.env = .script bytes polls later) :
    (configure op s).bus.env = .script bytes polls later := by
  rcases configure_conditions op s with ⟨hm, hk⟩ | ⟨hi, hv | ⟨hv, hskip⟩⟩
  · rwa [configure_pipelined hm hk]
  · rw [configure_writes hi hv]
    exact Bus.sendFrame_env_script _ _ _ _ _ _ h
  · rw [configure_restarts hi hv hskip]
    exact Bus.sendFrame_env_script _ _ _ _ _ _ h

section
variable {op : Latch} {s : State} {bytes : List Byte} {n : Nat} (he : entryError s op = none)
  (hl : s.params.pollLimit = some (n + 1)) (henv : s.bus.env = .script bytes [] (some true))
include he hl henv

/-- With `P.WAKE` the first wait is the wake's. -/
theorem goes_wake_timeout (hw : s.params.wake = true) : GoesTo 2 n (s.accept op)
    (({ s.entered op with bus := (s.entered op).bus.startSync s.params } : State).timedOut
      (n + 1) (n + 1)) := by
  obtain ⟨hd, _⟩ := capabilityMissing_eq_false.mp (capabilityMissing_of_entryError_none he)
  have henv' := Bus.rreg_of_script s.params 0 henv
  refine goes_more (transition_accept he) (by simp [State.entered]) rfl ?_
  refine goes_timeout (first := true) .configuring bytes.tail (n + 1) n (by simp [State.entered]) hd
    hl ?_ (fun b c => ?_) (Bus.sendFrame_env_script _ _ _ _ _ _ henv') (Nat.zero_add _)
  · rw [transition_waking (s := s.entered op) rfl rfl]
    exact wakingPhase_starts hw rfl
  · rw [transition_waking (op := op) rfl rfl]
    exact wakingPhase_waits hw rfl

/-- Without it, the first channel's. -/
theorem goes_first_channel_timeout (hw : s.params.wake = false) : GoesTo 4 n (s.accept op)
    (({ configure op { s.entered op with phase := .configuring } with phase := .converting } :
      State).timedOut (n + 1) (n + 1)) := by
  obtain ⟨hd, _⟩ := capabilityMissing_eq_false.mp (capabilityMissing_of_entryError_none he)
  have henv' := Bus.rreg_of_script s.params 0 henv
  refine goes_more (transition_accept he) (by simp [State.entered]) rfl ?_
  refine goes_more (t := { s.entered op with phase := .configuring }) ?_ (by simp) rfl ?_
  · rw [transition_waking (s := s.entered op) rfl rfl]
    exact wakingPhase_without_wake hw
  refine goes_more (transition_configuring rfl rfl) (by simp) (by simp [State.entered]) ?_
  refine goes_timeout (first := true) .reading bytes.tail (n + 1) n (by simp)
    (by simpa [State.entered] using hd) (by simpa [State.entered] using hl)
    ?_ (fun b c => ?_) (configure_env_script henv') (Nat.zero_add _)
  · rw [transition_converting (op := op) rfl (by simp [State.entered]), convertingPhase]
    simp [State.entered]
  · rw [transition_converting (op := op) rfl (by simp [State.entered]), convertingPhase]
    rfl

end

/-- Settles O36: the entry reads register 0 back and polls nothing, and the first wait, the wake's or
else the first channel's, goes on to the limit. -/
theorem neverReadyTimesOutAfterExactlyTheLimit :
    Obligations.NeverReadyTimesOutAfterExactlyTheLimit := by
  unfold Obligations.NeverReadyTimesOutAfterExactlyTheLimit
  intro i op s bytes limit hq _ he hl hlimit henv
  obtain ⟨n, rfl⟩ := Nat.exists_eq_add_of_le' hlimit
  have hpolls : pollCount (s.entered op).bus.trace = pollCount s.bus.trace := by
    simp [State.entered, Bus.rreg_trace]
  cases hw : s.params.wake with
  | true =>
    obtain ⟨t, ht, hu⟩ := exec_of_goesTo hq (by decide) (goes_wake_timeout he hl henv hw)
    refine ⟨t, _, ht, hu, rfl, rfl, rfl, rfl, rfl, rfl, ?_⟩
    refine (Bus.converting_pollCount _ _).trans ?_
    rw [Bus.startSync_trace, pollCount_frame, hpolls]
  | false =>
    obtain ⟨t, ht, hu⟩ := exec_of_goesTo hq (by decide) (goes_first_channel_timeout he hl henv hw)
    refine ⟨t, _, ht, hu, rfl, rfl, by simp [State.timedOut, State.entered], rfl,
      by simp [State.timedOut, State.entered], by simp [State.timedOut, State.entered], ?_⟩
    refine (Bus.converting_pollCount _ _).trans ?_
    rw [configure_pollCount, hpolls]

end Sys2Proof.Machine

namespace Sys2Proof.Machine

open Sys2Proof.Safety
open Host (Outcome)

/-! ## Under a limit every sequence ends (70_reset_and_hazards.md R252) -/

/-- The waits a sequence still has to end, the one it stands at among them: one for each channel, and
the wake's. -/
def waitsLeft (op : Latch) (s : State) : Nat :=
  match s.phase with
  | .idle | .restoring => 0
  | .entry | .waking => op.top.channels - s.k.val + 1
  | .configuring | .converting => op.top.channels - s.k.val
  | .reading => op.top.channels - s.k.val - 1

/-- The turns those waits have at most under the limit, less the polls the open one has counted. -/
def turnsLeft (op : Latch) (limit : Nat) (s : State) : Nat :=
  waitsLeft op s * limit - if s.waiting then s.pcnt else 0

theorem waitsLeft_le (op : Latch) (s : State) : waitsLeft op s ≤ 5 := by
  have := op.top.channels_le
  unfold waitsLeft
  split <;> omega

theorem turnsLeft_le (op : Latch) (limit : Nat) (s : State) : turnsLeft op limit s ≤ 5 * limit :=
  (Nat.sub_le _ _).trans (Nat.mul_le_mul_right limit (waitsLeft_le op s))

theorem turnsLeft_of_not_waiting {op : Latch} {limit : Nat} {s : State} (hw : s.waiting = false) :
    turnsLeft op limit s = waitsLeft op s * limit := by
  simp [turnsLeft, hw]

theorem turnsLeft_of_waiting {op : Latch} {limit : Nat} {s : State} (hw : s.waiting = true) :
    turnsLeft op limit s = waitsLeft op s * limit - s.pcnt := by
  simp [turnsLeft, hw]

theorem turnsLeft_of_blockIdle {op : Latch} {limit : Nat} {s : State} (h : BlockIdle s) :
    turnsLeft op limit s = 0 := by
  obtain ⟨hp, _, _, hw⟩ := h
  simp [turnsLeft_of_not_waiting hw, waitsLeft, hp]

/-- An open wait has a turn left: its polls are below the limit. -/
theorem turnsLeft_pos {op : Latch} {s : State} {limit : Nat} (hs : Underway op s)
    (hl : s.params.pollLimit = some limit) (hw : s.waiting = true) : 0 < turnsLeft op limit s := by
  have hseq := hs.sequenceInv hw
  have hbelow := hseq.belowLimit limit hl
  have hrange := hseq.inRange
  have hwaits : 1 ≤ waitsLeft op s := by
    rcases sequenceInv_phase hseq with hp | hp <;> simp only [waitsLeft, hp] <;> omega
  rw [turnsLeft_of_waiting hw]
  exact Nat.sub_pos_of_lt (hbelow.trans_le (Nat.le_mul_of_pos_left limit hwaits))

/-! ### No transition adds a turn, and a poll answered "converting" takes one -/

/-- With `P.WAKE` the Waking step is a turn of its wait, the first where none is open. -/
theorem wakingPhase_turn_of_wait {s : State} (hw : s.params.wake = true) :
    ∃ b, wakingPhase s = waitReady (!s.waiting) .configuring { s with bus := b } := by
  cases hwt : s.waiting with
  | true => exact ⟨s.bus, wakingPhase_waits hw hwt⟩
  | false => exact ⟨_, wakingPhase_starts hw hwt⟩

/-- In a phase whose wait is one of those left: the answer "ready" takes the wait with all its turns,
"converting" one turn, and a timeout takes all there are. -/
theorem waitReady_turnsLeft {op : Latch} {after : Phase} {s t : State} {limit : Nat}
    (hl : s.params.pollLimit = some limit) (hcounted : s.waiting = true → PollsCounted s)
    (hafter : waitsLeft op s = waitsLeft op { s with phase := after } + 1)
    (h : waitReady (!s.waiting) after s = .next t) :
    turnsLeft op limit t + t.waiting.toNat ≤ turnsLeft op limit s := by
  have hturns : turnsLeft op limit s = waitsLeft op { s with phase := after } * limit + limit -
      (if s.waiting then s.pcnt else 0) := by
    rw [turnsLeft, hafter, Nat.succ_mul]
  have hpolls : (if (!s.waiting) = true then 0 else s.pcnt) = if s.waiting then s.pcnt else 0 := by
    cases s.waiting <;> rfl
  obtain ⟨_, ⟨_, rfl⟩ | ⟨_, rfl, hbelow⟩ | ⟨_, rfl, _⟩⟩ := waitReady_cases h
  · have hbound : (if s.waiting then s.pcnt else 0) ≤ limit := by
      split
      next hw => exact ((hcounted hw).2 limit hl).le
      next => exact Nat.zero_le limit
    rw [hturns, turnsLeft_of_not_waiting rfl]
    show waitsLeft op { s with phase := after } * limit + 0 ≤ _
    omega
  · have hless := hbelow limit hl
    rw [hpolls] at hless
    rw [turnsLeft_of_waiting rfl, hpolls, hturns]
    show waitsLeft op s * limit - _ + 1 ≤ _
    rw [hafter, Nat.succ_mul]
    dsimp only
    omega
  · rw [turnsLeft_of_blockIdle ⟨rfl, rfl, rfl, rfl⟩]
    exact Nat.zero_le _

/-- After a channel is read the waits of the channels behind it are left. -/
theorem State.advance_waitsLeft (op : Latch) (s : State) :
    waitsLeft op (s.advance op) = op.top.channels - s.k.val - 1 := by
  by_cases hmore : s.k.val + 1 < op.top.channels
  · rw [State.advance_of_more s op hmore]
    simp only [waitsLeft, val_add_one_of_more hmore]
    omega
  · rw [State.advance_of_last s op hmore]
    simp only [waitsLeft]
    omega

theorem readingPhase_waitsLeft {op : Latch} {s t : State} (hp : s.phase = .reading)
    (h : readingPhase op s = .next t) : t.waiting = s.waiting ∧ waitsLeft op t = waitsLeft op s := by
  have hread : waitsLeft op s = op.top.channels - s.k.val - 1 := by simp only [waitsLeft, hp]
  obtain ⟨_, rfl⟩ | ⟨_, _, rfl⟩ := readingPhase_cases h
  · exact ⟨State.advance_waiting _ op, (State.advance_waitsLeft op _).trans hread.symm⟩
  · exact ⟨State.advance_waiting _ op, (State.advance_waitsLeft op _).trans hread.symm⟩

/-- Outside a wait the turns left go with the waits left. -/
theorem turnsLeft_add_waiting_le {op : Latch} {s t : State} (limit : Nat) (hs : s.waiting = false)
    (ht : t.waiting = false) (hwaits : waitsLeft op t ≤ waitsLeft op s) :
    turnsLeft op limit t + t.waiting.toNat ≤ turnsLeft op limit s := by
  rw [turnsLeft_of_not_waiting hs, turnsLeft_of_not_waiting ht, ht]
  exact Nat.mul_le_mul_right limit hwaits

theorem turnsLeft_add_waiting_of_blockIdle {op : Latch} {s t : State} (limit : Nat)
    (h : BlockIdle t) : turnsLeft op limit t + t.waiting.toNat ≤ turnsLeft op limit s := by
  have hturns := turnsLeft_of_blockIdle (op := op) (limit := limit) h
  obtain ⟨_, _, _, hw⟩ := h
  rw [hturns, hw]
  exact Nat.zero_le _

/-- A transition after the entry adds no turn, and takes one when it is answered "converting". -/
theorem transition_turnsLeft {op : Latch} {s t : State} {limit : Nat} (hs : Underway op s)
    (hl : s.params.pollLimit = some limit) (h : transition s = .next t) :
    turnsLeft op limit t + t.waiting.toNat ≤ turnsLeft op limit s := by
  have hlatched := hs.stands.latched
  have hchannel := hs.stands.channel
  cases hs.poised with
  | waking hp _ _ hwait =>
    rw [transition_waking hp (hlatched (by simp [hp]))] at h
    cases hwake : s.params.wake with
    | false =>
      have hw : s.waiting = false := by simpa [hwake] using hwait
      rw [wakingPhase_without_wake hwake] at h
      cases h
      exact turnsLeft_add_waiting_le limit hw hw (by simp [waitsLeft, hp])
    | true =>
      obtain ⟨b, hturn⟩ := wakingPhase_turn_of_wait hwake
      rw [hturn] at h
      exact waitReady_turnsLeft (s := { s with bus := b }) hl (fun hw => (hwait hw).2)
        (by simp [waitsLeft, hp]) h
  | configuring hp hw =>
    rw [transition_configuring hp (hlatched (by simp [hp]))] at h
    cases h
    exact turnsLeft_add_waiting_le limit hw (by simpa using hw) (by simp [waitsLeft, hp])
  | converting hp _ hwait =>
    rw [transition_converting hp (hlatched (by simp [hp]))] at h
    obtain ⟨hrange, _⟩ := hchannel (by simp [hp]) (by simp [hp])
    refine waitReady_turnsLeft hl hwait ?_ h
    simp only [waitsLeft, hp]
    omega
  | reading hp hw =>
    rw [transition_reading hp (hlatched (by simp [hp]))] at h
    obtain ⟨hw', hwaits⟩ := readingPhase_waitsLeft hp h
    exact turnsLeft_add_waiting_le limit hw (hw'.trans hw) hwaits.le
  | restoring hp _ =>
    rw [transition_restoring hp (hlatched (by simp [hp]))] at h
    exact turnsLeft_add_waiting_of_blockIdle limit (restoringPhase_blockIdle h)
  | idle hidle =>
    obtain ⟨hp, hparked⟩ := hidle
    rw [transition_idle hp] at h
    cases h
    exact turnsLeft_add_waiting_of_blockIdle limit ⟨hp, hparked⟩

theorem Reaches.turnsLeft_le {op : Latch} {s t : State} {limit n : Nat} (h : Reaches s t)
    (hs : Underway op s) (hl : s.params.pollLimit = some limit)
    (hn : turnsLeft op limit s + s.waiting.toNat ≤ n) :
    turnsLeft op limit t + t.waiting.toNat ≤ n := by
  refine (h.keeps (P := fun t => Underway op t ∧ t.params.pollLimit = some limit ∧
    turnsLeft op limit t + t.waiting.toNat ≤ n) ?_ ⟨hs, hl, hn⟩).2.2
  rintro t u ⟨ht, hl, hn⟩ htu
  obtain ⟨_, _, _, hpar, _⟩ := transition_frame htu
  have hturns := transition_turnsLeft ht hl htu
  exact ⟨transition_underway ht htu, by rw [hpar]; exact hl, by omega⟩

/-! ### Every step of a wait takes a turn -/

/-- A run with fuel makes a transition at least. -/
theorem exists_transition_of_runTransitions {fuel : Nat} {s t : State}
    (h : runTransitions (fuel + 1) s = .next t) : ∃ u, transition s = .next u ∧ Reaches u t := by
  cases hu : transition s with
  | fault f => simp [runTransitions, hu] at h
  | refused r => simp [runTransitions, hu] at h
  | next u =>
    refine ⟨u, rfl, ?_⟩
    simp only [runTransitions, hu] at h
    split at h
    · obtain rfl : u = t := Outcome.next.inj h
      exact .refl
    · exact reaches_of_runTransitions h

/-- A step from an open wait ends the sequence, or comes to an open wait with fewer turns left. -/
theorem step_turnsLeft {op : Latch} {s : State} {limit : Nat} (hs : Underway op s)
    (hl : s.params.pollLimit = some limit) (hw : s.waiting = true) :
    ∃ t, step s = .next t ∧ Underway op t ∧ t.params.pollLimit = some limit ∧
      (t.phase = .idle ∨ t.waiting = true) ∧ turnsLeft op limit t < turnsLeft op limit s := by
  have hseq := hs.sequenceInv hw
  obtain ⟨t, hrun⟩ := runTransitions_progress maxTransitions (supplied_of_sequenceInv hseq)
  obtain ⟨u, hsu, hut⟩ := exists_transition_of_runTransitions (fuel := 14) hrun
  have hu := transition_underway hs hsu
  have ht := hut.underway hu
  have hends : t.phase = .idle ∨ t.waiting = true :=
    runTransitions_ends hs.stands ((transitionsLeft_le hs.stands).trans (by decide)) hrun
  obtain ⟨_, _, _, hpar, _⟩ := transition_frame hsu
  obtain ⟨_, _, _, hpar'⟩ := runTransitions_frame hrun
  have hturns := hut.turnsLeft_le hu (by rw [hpar]; exact hl) (transition_turnsLeft hs hl hsu)
  refine ⟨t, (step_of_sequenceInv hseq).trans hrun, ht, by rw [hpar']; exact hl, hends, ?_⟩
  rcases hends with hp | hw'
  · rw [turnsLeft_of_blockIdle (ht.poised.blockIdle hp)]
    exact turnsLeft_pos hs hl hw
  · rw [hw'] at hturns
    exact hturns

/-- From where a step may stop, as many steps as turns are left end the sequence. -/
theorem runSteps_idle_within {op : Latch} {s : State} {limit n : Nat} (hs : Underway op s)
    (hl : s.params.pollLimit = some limit) (hends : s.phase = .idle ∨ s.waiting = true)
    (hn : turnsLeft op limit s ≤ n) :
    ∃ m t, m ≤ n ∧ runSteps m s = .next t ∧ t.phase = .idle := by
  induction n generalizing s with
  | zero =>
    rcases hends with hp | hw
    · exact ⟨0, s, le_rfl, rfl, hp⟩
    · have := turnsLeft_pos hs hl hw
      omega
  | succ n ih =>
    rcases hends with hp | hw
    · exact ⟨0, s, Nat.zero_le _, rfl, hp⟩
    · obtain ⟨u, hstep, hu, hlu, hendsu, hless⟩ := step_turnsLeft hs hl hw
      obtain ⟨m, t, hm, hrun, hidle⟩ := ih hu hlu hendsu (by omega)
      exact ⟨m + 1, t, Nat.succ_le_succ hm, (runSteps_of_step hstep m).trans hrun, hidle⟩

/-- Settles O38: the turns its waits have left, at most five times the limit, bound the steps of a
running sequence, and each step takes at least one (log 9). -/
theorem limitedWaitsEndEverySequence : Obligations.LimitedWaitsEndEverySequence := by
  unfold Obligations.LimitedWaitsEndEverySequence
  intro s limit hinv hl
  rcases hinv.position with ⟨hp, _⟩ | ⟨op, hseq⟩
  · exact ⟨0, s, Nat.zero_le _, rfl, hp⟩
  · exact runSteps_idle_within (underway_of_sequenceInv hseq hinv.code) hl (.inr hseq.waits)
      (turnsLeft_le op limit s)

end Sys2Proof.Machine
